-- ==== Sys2Proof/Word.lean ====
section
/-! DEFINITION. The word types of the HRM SD-SPI core (spec 00_scope.md R10, 30_encoding.md R101, R109). -/

namespace Sys2Proof

/-- One byte: what crosses the transport in one exchange (R10, R69). -/
abbrev Byte := BitVec 8

/-- The host's request word `OP[43:40] ## OPERAND[39:0]` (30_encoding.md R109). -/
abbrev ReqWord := BitVec 44

/-- A command frame as one number, bit 47 the first bit on the wire (30_encoding.md R101). -/
abbrev FrameWord := BitVec 48

/-- A row of the opcode table as one number: a frame, or a request word with its top four bits 0. -/
abbrev TableWord := BitVec 48

/-- The three 512-byte buffers (20_memory.md R60): `WRBUF`, `RXBUF[0]` (A) and `RXBUF[1]` (B). -/
inductive BufId where
  | wr
  | rxA
  | rxB
  deriving DecidableEq, Repr

end Sys2Proof
end

