-- ==== Sys2Proof/Config.lean ====
section
/-! DEFINITION. What is fixed for the machine: the constants of 00_scope.md R6, the parameters of R7, and the free values
(opaque constants with no body). -/

namespace Sys2Proof.Config

/-- `IDLE`: the filler sent on every read and skipped while polling (R6). -/
def idle : Byte := 0xFF#8
/-- `TOKEN`: the data start token (R6). -/
def token : Byte := 0xFE#8
/-- `BLOCK_LEN` (R6). -/
def blockLen : Nat := 512
/-- `PREAMBLE_LEN` (R6). -/
def preambleLen : Nat := 10
/-- `FRAME_LEN` (R6). -/
def frameLen : Nat := 6
/-- `R7_LEN` (R6). -/
def r7Len : Nat := 5
/-- `WR_LEAD_IDLE` (R6). -/
def wrLeadIdle : Nat := 2
/-- `RD_TRAIL` (R6). -/
def rdTrail : Nat := 3
/-- `CRC_POLY`: the low seven coefficients of x^7 + x^3 + 1 (R6). -/
def crcPoly : BitVec 7 := 0x09#7
/-- `CRC_INIT` (R6). -/
def crcInit : BitVec 7 := 0#7
/-- `R1_IDLE_STATE`: awaited after `CMD0` and `CMD55` (R6). -/
def r1IdleState : Byte := 0x01#8
/-- `R1_READY`: awaited after `CMD41`, `CMD17`, `CMD24` (R6). -/
def r1Ready : Byte := 0x00#8
/-- `R7_CHECK`: the extended response awaited after `CMD8` (R6). -/
def r7Check : Vector Byte 5 := #v[0x01#8, 0x00#8, 0x00#8, 0x01#8, 0xAA#8]
/-- `CMD8_ARG` (R6; 90_conflicts.md C1). -/
def cmd8Arg : BitVec 32 := 0x000001AA#32
/-- `CMD41_ARG` (R6; 90_conflicts.md C1). -/
def cmd41Arg : BitVec 32 := 0x40000000#32

/-- `SEL_RESET` = 1: the first successful read fills buffer A (R7; decision D8; 70_reset_and_hazards.md R266). -/
def selReset : Bool := true

/-- The command code of `CMD0`, confirmed by the source (R7). -/
def cmd0 : BitVec 6 := 0#6
/-- The command code of `CMD8` (R7; PRESUMED by the spec from general knowledge, its note G1; log 6). -/
def cmd8 : BitVec 6 := 8#6
/-- The command code of `CMD17` (as `cmd8`; log 6). -/
def cmd17 : BitVec 6 := 17#6
/-- The command code of `CMD24` (as `cmd8`; log 6). -/
def cmd24 : BitVec 6 := 24#6
/-- The command code of `CMD41` (as `cmd8`; log 6). -/
def cmd41 : BitVec 6 := 41#6
/-- The command code of `CMD55` (as `cmd8`; log 6). -/
def cmd55 : BitVec 6 := 55#6

/-- `WR_ACCEPT`, the write "accepted" byte: OPEN, no value in any source (R7; decision D9; log 1). -/
opaque wrAccept : Byte

/-- What the environment answers at exchange number `n` when the script of answers is used up: any value
(20_memory.md R72; 93_implementation_defined.md U7; log 2). -/
opaque freeRx : Nat → Byte

/-- What a buffer byte that nothing has written holds: any value, fixed for the run (10_state.md R22, R23;
93_implementation_defined.md U6; log 3). -/
opaque unwrittenByte : BufId → Nat → Byte

end Sys2Proof.Config
end

