-- ==== Sys2Proof/Machine/Checksum.lean ====
section
/-! DEFINITION. The arithmetic of the Checksum Unit (40_checksum.md R140, R142) and the checksum of a command frame
(30_encoding.md R102, R103). -/

namespace Sys2Proof.Machine

/-- One turn of the loop of R140: `fb = acc[6] ^ bit`, shift left, feed the polynomial back if `fb` is 1. -/
def crcBit (acc : BitVec 7) (bit : Bool) : BitVec 7 :=
  let shifted := acc <<< 1
  if acc.getLsbD 6 ^^ bit then shifted ^^^ Config.crcPoly else shifted

/-- The source's `update(accumulator, byte)`: bit 7 of the byte first (R140). -/
def crcUpdate (acc : BitVec 7) (byte : Byte) : BitVec 7 :=
  [7, 6, 5, 4, 3, 2, 1, 0].foldl (fun a i => crcBit a (byte.getLsbD i)) acc

/-- `crc7(b0, ..., b(n-1))`: one `update` a byte from the initial value 0 (R142). -/
def crc7 (bytes : List Byte) : BitVec 7 := bytes.foldl crcUpdate Config.crcInit

/-- The command byte `0b01 ## code`, that is `0x40 | code` (30_encoding.md R102). -/
def commandByte (code : BitVec 6) : Byte := 0x40#8 ||| code.setWidth 8

/-- The checksum byte `(crc7 << 1) | 1` cut to 8 bits (30_encoding.md R103). -/
def checksumByte (crc : BitVec 7) : Byte := (crc.setWidth 8 <<< 1) ||| 1#8

/-- The first five bytes of a frame: the command byte, then the argument most significant byte first
(20_memory.md R65; 30_encoding.md R112). -/
def frameBody (code : BitVec 6) (arg : BitVec 32) : List Byte :=
  [commandByte code, arg.extractLsb' 24 8, arg.extractLsb' 16 8, arg.extractLsb' 8 8, arg.extractLsb' 0 8]

/-- The checksum of a frame's first five bytes (R142). -/
def frameCrc (code : BitVec 6) (arg : BitVec 32) : BitVec 7 := crc7 (frameBody code arg)

end Sys2Proof.Machine
end

