-- ==== Sys2Proof/Syntax.lean ====
section
/-! DEFINITION. The instructions: one constructor per row of spec/opcode_table.json, sixteen request words
(30_encoding.md R110, R111, R114) and seven command frames (R117, R122). -/

namespace Sys2Proof

/-- The rows of the opcode table. Operand bits a request does not list are ignored (R115), so no constructor holds them. -/
inductive Instr where
  /-- `NOP` (R123). -/
  | nop
  /-- `CRC7UPD acc, byte` (R140). -/
  | crc7upd (acc : BitVec 7) (byte : Byte)
  /-- `SENDCMD code, arg32` (R150). -/
  | sendcmd (code : BitVec 6) (arg : BitVec 32)
  /-- `RDRESP1` (R161). -/
  | rdresp1
  /-- `RDRESP5` (R163). -/
  | rdresp5
  /-- `MATCH1 exp8` (R165). -/
  | match1 (exp : Byte)
  /-- `MATCH5 exp40` (R167). -/
  | match5 (exp : BitVec 40)
  /-- `INIT` (R180). -/
  | init
  /-- `WRBLK addr32` (R200). -/
  | wrblk (addr : BitVec 32)
  /-- `RDBLK addr32` (R210). -/
  | rdblk (addr : BitVec 32)
  /-- Reserved request code `0xA` (R114). -/
  | reservedA
  /-- Reserved request code `0xB` (R114). -/
  | reservedB
  /-- Reserved request code `0xC` (R114). -/
  | reservedC
  /-- Reserved request code `0xD` (R114). -/
  | reservedD
  /-- Reserved request code `0xE` (R114). -/
  | reservedE
  /-- Reserved request code `0xF` (R114). -/
  | reservedF
  /-- Frame `40 00 00 00 00 95` (R117, R182). -/
  | cmd0
  /-- Frame `48 00 00 01 AA 87` (R117, R183). -/
  | cmd8
  /-- Frame `77 00 00 00 00 65` (R117, R184). -/
  | cmd55
  /-- Frame `69 40 00 00 00 77` (R117, R185). -/
  | cmd41
  /-- Frame `51 a3 a2 a1 a0 kk` (R117, R210). -/
  | cmd17 (addr : BitVec 32) (crc : BitVec 7)
  /-- Frame `58 a3 a2 a1 a0 kk` (R117, R200). -/
  | cmd24 (addr : BitVec 32) (crc : BitVec 7)
  /-- The general frame (R101, R150): every frame that is none of the six above. -/
  | cmdn (code : BitVec 6) (arg : BitVec 32) (crc : BitVec 7)
  deriving DecidableEq, Repr

/-- Is this row a command frame (`FRAME48`) and not a request word (`REQ44`)? -/
def Instr.isFrame : Instr → Bool
  | .nop | .crc7upd _ _ | .sendcmd _ _ | .rdresp1 | .rdresp5 | .match1 _ | .match5 _ | .init | .wrblk _ | .rdblk _
  | .reservedA | .reservedB | .reservedC | .reservedD | .reservedE | .reservedF => false
  | .cmd0 | .cmd8 | .cmd55 | .cmd41 | .cmd17 _ _ | .cmd24 _ _ | .cmdn _ _ _ => true

end Sys2Proof
end

