-- ==== Sys2Proof/WellFormed.lean ====
section
/-! DEFINITION. Well-formed instructions: the checksum field of a frame is the function of its first five bytes that
R142 gives (30_encoding.md R122: "the `k` bits are not free"), and `cmdn` stands only for frames that are none of the six
named ones. -/

namespace Sys2Proof

/-- Is the frame (`code`, `arg`) one of the six named rows of 30_encoding.md R117? -/
def namedFrame (code : BitVec 6) (arg : BitVec 32) : Bool :=
  code == Config.cmd17 || code == Config.cmd24 || (code == Config.cmd0 && arg == 0#32) ||
  (code == Config.cmd8 && arg == Config.cmd8Arg) || (code == Config.cmd55 && arg == 0#32) ||
  (code == Config.cmd41 && arg == Config.cmd41Arg)

/-- The checks on an instruction; the requests have none, since every operand value is accepted (R63, R116). -/
def Instr.wf : Instr → Bool
  | .nop | .crc7upd _ _ | .sendcmd _ _ | .rdresp1 | .rdresp5 | .match1 _ | .match5 _ | .init | .wrblk _ | .rdblk _
  | .reservedA | .reservedB | .reservedC | .reservedD | .reservedE | .reservedF => true
  | .cmd0 | .cmd8 | .cmd55 | .cmd41 => true
  | .cmd17 addr crc => crc == Machine.frameCrc Config.cmd17 addr
  | .cmd24 addr crc => crc == Machine.frameCrc Config.cmd24 addr
  | .cmdn code arg crc => crc == Machine.frameCrc code arg && !namedFrame code arg

end Sys2Proof
end

