-- ==== Sys2Proof/Decode.lean ====
section
/-! DEFINITION. The decoder, total on any 48 bits, and the encoder (30_encoding.md R101, R109 to R117, R122). A table word
is a request word with its top four bits 0, or a command frame: bits 47:46 are `0b01` and bit 0 is 1. -/

namespace Sys2Proof

/-- Why a word is neither a request nor a frame. -/
inductive DecodeError where
  /-- Bits 47:46 are not the start bits `0b01` of a frame (R101), and bits 47:44 are not all 0 (a request has 44 bits). -/
  | badStartBits
  /-- The start bits are a frame's and the end bit (bit 0) is 0 (R101). -/
  | badEndBit
  deriving DecidableEq, Repr

/-- What the decoder answers. -/
inductive Decoded where
  | ok (i : Instr)
  | error (e : DecodeError)
  deriving DecidableEq, Repr

/-- `OP`, bits 43:40 of a request (R109). -/
def reqOp (w : ReqWord) : BitVec 4 := w.extractLsb' 40 4

/-- `OPERAND`, bits 39:0 of a request (R109). -/
def reqOperand (w : ReqWord) : BitVec 40 := w.extractLsb' 0 40

/-- The operation an `OP` and an `OPERAND` select (R110, R111): all sixteen codes have one. -/
def decodeOp (op : BitVec 4) (operand : BitVec 40) : Instr :=
  match op with
  | 0x0#4 => .nop
  | 0x1#4 => .crc7upd (operand.extractLsb' 8 7) (operand.extractLsb' 0 8)
  | 0x2#4 => .sendcmd (operand.extractLsb' 32 6) (operand.extractLsb' 0 32)
  | 0x3#4 => .rdresp1
  | 0x4#4 => .rdresp5
  | 0x5#4 => .match1 (operand.extractLsb' 0 8)
  | 0x6#4 => .match5 operand
  | 0x7#4 => .init
  | 0x8#4 => .wrblk (operand.extractLsb' 0 32)
  | 0x9#4 => .rdblk (operand.extractLsb' 0 32)
  | 0xA#4 => .reservedA
  | 0xB#4 => .reservedB
  | 0xC#4 => .reservedC
  | 0xD#4 => .reservedD
  | 0xE#4 => .reservedE
  | _ => .reservedF

/-- The operation a request word selects (R109). -/
def decodeReq (w : ReqWord) : Instr := decodeOp (reqOp w) (reqOperand w)

/-- The frame row a frame word is: the four constant frames whole, then `CMD17` and `CMD24` by byte 0, then the general
frame (R117, R122). The start and end bits are checked by `decode`; the checksum bits are kept as they are (log 14). -/
def decodeFrame (w : FrameWord) : Instr :=
  if w = 0x400000000095#48 then .cmd0
  else if w = 0x48000001AA87#48 then .cmd8
  else if w = 0x770000000065#48 then .cmd55
  else if w = 0x694000000077#48 then .cmd41
  else if w.extractLsb' 40 6 = Config.cmd17 then .cmd17 (w.extractLsb' 8 32) (w.extractLsb' 1 7)
  else if w.extractLsb' 40 6 = Config.cmd24 then .cmd24 (w.extractLsb' 8 32) (w.extractLsb' 1 7)
  else .cmdn (w.extractLsb' 40 6) (w.extractLsb' 8 32) (w.extractLsb' 1 7)

/-- The decoder. -/
def decode (w : TableWord) : Decoded :=
  if w.extractLsb' 44 4 = 0#4 then .ok (decodeReq (w.extractLsb' 0 44))
  else if w.extractLsb' 46 2 = 0b01#2 then
    if w.extractLsb' 0 1 = 1#1 then .ok (decodeFrame w) else .error .badEndBit
  else .error .badStartBits

/-- The request word of an `OP` and an `OPERAND` (R109). -/
def reqOf (op : BitVec 4) (operand : BitVec 40) : ReqWord := op ++ operand

/-- A request word as a table word: bits 47:44 are 0. -/
def tableOfReq (w : ReqWord) : TableWord := 0#4 ++ w

/-- A frame word from its fields (R101): start bits, code, argument, checksum, end bit. -/
def frameOf (code : BitVec 6) (arg : BitVec 32) (crc : BitVec 7) : FrameWord :=
  0b01#2 ++ code ++ arg ++ crc ++ 1#1

/-- The encoder; operand bits an operation ignores are written 0 (R111, R115). -/
def encode : Instr → TableWord
  | .nop => tableOfReq (reqOf 0x0#4 0#40)
  | .crc7upd acc byte => tableOfReq (reqOf 0x1#4 (0#25 ++ acc ++ byte))
  | .sendcmd code arg => tableOfReq (reqOf 0x2#4 (0#2 ++ code ++ arg))
  | .rdresp1 => tableOfReq (reqOf 0x3#4 0#40)
  | .rdresp5 => tableOfReq (reqOf 0x4#4 0#40)
  | .match1 exp => tableOfReq (reqOf 0x5#4 (0#32 ++ exp))
  | .match5 exp => tableOfReq (reqOf 0x6#4 exp)
  | .init => tableOfReq (reqOf 0x7#4 0#40)
  | .wrblk addr => tableOfReq (reqOf 0x8#4 (0#8 ++ addr))
  | .rdblk addr => tableOfReq (reqOf 0x9#4 (0#8 ++ addr))
  | .reservedA => tableOfReq (reqOf 0xA#4 0#40)
  | .reservedB => tableOfReq (reqOf 0xB#4 0#40)
  | .reservedC => tableOfReq (reqOf 0xC#4 0#40)
  | .reservedD => tableOfReq (reqOf 0xD#4 0#40)
  | .reservedE => tableOfReq (reqOf 0xE#4 0#40)
  | .reservedF => tableOfReq (reqOf 0xF#4 0#40)
  | .cmd0 => 0x400000000095#48
  | .cmd8 => 0x48000001AA87#48
  | .cmd55 => 0x770000000065#48
  | .cmd41 => 0x694000000077#48
  | .cmd17 addr crc => frameOf Config.cmd17 addr crc
  | .cmd24 addr crc => frameOf Config.cmd24 addr crc
  | .cmdn code arg crc => frameOf code arg crc

/-- The table word that `nbits` bits of the number `w` are, the bits above them 0. -/
def tableWordOf (nbits w : Nat) : TableWord := BitVec.ofNat 48 (w % 2 ^ nbits)

/-- The instruction the decoder reads from a word numbered as spec/opcode_table.json numbers it; none where it refuses,
and none for a number of more than 48 bits. -/
def decodeTableWord (nbits w : Nat) : Option Instr :=
  if w % 2 ^ nbits < 2 ^ 48 then
    match decode (tableWordOf nbits w) with
    | .ok i => some i
    | .error _ => none
  else none

end Sys2Proof
end

