-- ==== Sys2Proof/Machine/State.lean ====
section
/-! DEFINITION. The state of the machine: every piece of state the spec gives (10_state.md R20 to R43), the transport
stream (20_memory.md R60), and the coming inputs of the environment and the host as plain data. -/

namespace Sys2Proof.Machine

/-- A 512-byte buffer: (index, byte) pairs, indices strictly rising and below 512 (`Memory.wf` in Machine/Ops.lean). An index
that is not listed has not been written and has no value of its own (log 3). -/
abbrev Memory := List Host.Cell

/-- `RESP_LEN`: only 0, 1 and 5 occur (R25, R35). -/
inductive RespLen where
  /-- 0: no capture since reset. -/
  | none0
  /-- 1: the last capture was short. -/
  | short1
  /-- 5: the last capture was extended. -/
  | ext5
  deriving DecidableEq, Repr

/-- `ISEQ`, the state of the Initialization Sequencer (R26). Code 7 is never held (93_implementation_defined.md U14). -/
inductive ISeq where
  | sOff
  | sReset
  | sGoIdle
  | sCheckIf
  | sAppCmd
  | sAppOpCond
  | sReady
  deriving DecidableEq, Repr

/-- `PH`, the phase (R37). -/
inductive Phase where
  | idle
  | pre
  | frame
  | scan
  | cap
  | disc
  | lead
  | data
  | wresp
  | token
  | trail
  deriving DecidableEq, Repr

/-- One event on the transport (00_scope.md R12, R14). -/
inductive Event where
  /-- `T:xx`, a `TxByte`. -/
  | tx (b : Byte)
  /-- `R:xx`, a `RxByte` and the byte it returned. -/
  | rx (b : Byte)
  /-- `CS^`, `CsHigh()`. -/
  | csHigh
  /-- `CSv`, `CsLow()`. -/
  | csLow
  deriving DecidableEq, Repr

/-- One move of the host (R9; 20_memory.md R85), or its letting the core take a step (10_state.md R38; log 5). -/
inductive HostMove where
  /-- The core takes its next step. -/
  | pass
  /-- A write of `REQ` (R34). -/
  | writeReq (w : ReqWord)
  /-- A write of `WRBUF[i]` (R23). -/
  | writeWrbuf (i : Fin 512) (v : Byte)
  /-- The hardware reset (R43, R261). -/
  | reset
  deriving DecidableEq, Repr

/-- The state. A 1-bit register is a Bool, `true` for 1. -/
structure State where
  /-- `SEL`: false names buffer A, true buffer B (R21). -/
  sel : Bool
  /-- `RXBUF[0]`, buffer A (R22). -/
  rxA : Memory
  /-- `RXBUF[1]`, buffer B (R22). -/
  rxB : Memory
  /-- `WRBUF` (R23). -/
  wrbuf : Memory
  /-- `RESP[0..4]` (R24). -/
  resp : Vector Byte 5
  /-- `RESP_LEN` (R25). -/
  respLen : RespLen
  /-- `ISEQ` (R26). -/
  iseq : ISeq
  /-- `CSN`: true is high, deasserted (R27). -/
  csn : Bool
  /-- `OPD[39:0]`, the operand latch (R28). -/
  opd : BitVec 40
  /-- `FRM[0..5]`, the frame being sent (R29). -/
  frm : Vector Byte 6
  /-- `TOK` (R29). -/
  tok : Byte
  /-- `CNT` (R39). -/
  cnt : BitVec 10
  /-- `BUSY` (R30). -/
  busy : Bool
  /-- `OK` (R31). -/
  ok : Bool
  /-- `VAL` (R32). -/
  val : BitVec 40
  /-- `CUR_OP` (R33). -/
  curOp : BitVec 4
  /-- `PH` (R37). -/
  ph : Phase
  /-- How far the card's byte stream has been advanced: the exchanges made so far (R41(b); 20_memory.md R76). -/
  xn : Nat
  /-- The transport stream so far, newest event first (20_memory.md R60). -/
  wire : List Event
  /-- The model's own: the environment's answers to the coming `RxByte()` calls (20_memory.md R72; log 2). -/
  rx : List Byte
  /-- The model's own: the host's coming moves (log 5). -/
  host : List HostMove
  deriving DecidableEq, Repr

/-- Why the machine is stuck. The core has no exceptions (00_scope.md R13): both are positions outside every step table,
which no run reaches from a state that meets `Safety.inv` (log 8). -/
inductive Fault where
  /-- `PH`, `ISEQ` or `CNT` stands outside the step table of the operation in progress. Raised by every meaning that has a
  table. Safe: the machine stops where the spec gives no step. -/
  | offTable
  /-- In phase `FRAME` the six bytes of `FRM` are no command frame (R101). Raised by `coreStep`. Safe, as `offTable`. -/
  | badFrame
  deriving DecidableEq, Repr

/-- Why an instruction has no meaning. -/
inductive Refusal where
  /-- The instruction is not modelled. Raised by arms of `exec` only, and by none now. Safe. -/
  | notModelled (mnemonic : String)
  deriving DecidableEq, Repr

/-- What a meaning answers. -/
abbrev Answer := Host.Outcome State Fault Refusal

/-- The state after reset (R43). `OPD`, `FRM`, `TOK`, `CNT` are unspecified there and dead (R44): 0, DESIGN CHOICE (log 4). No
buffer byte is listed (log 3); no event, no scripted answer and no host move (log 2, log 5). -/
def State.reset : State where
  sel := Config.selReset
  rxA := []
  rxB := []
  wrbuf := []
  resp := #v[0xFF#8, 0xFF#8, 0xFF#8, 0xFF#8, 0xFF#8]
  respLen := .none0
  iseq := .sOff
  csn := true
  opd := 0#40
  frm := #v[0#8, 0#8, 0#8, 0#8, 0#8, 0#8]
  tok := 0#8
  cnt := 0#10
  busy := false
  ok := false
  val := 0#40
  curOp := 0#4
  ph := .idle
  xn := 0
  wire := []
  rx := []
  host := []

end Sys2Proof.Machine
end

