-- ==== Sys2Proof/Machine/Ops.lean ====
section
/-! DEFINITION. The named operations over buffers, transport and registers that every meaning is written with
(00_scope.md R11 to R13; 20_memory.md R70 to R76). -/

namespace Sys2Proof.Machine

/-! ## Buffers (20_memory.md R60, R61, R69) -/

/-- Every index of the list is above `lo` and the indices rise strictly. -/
def Memory.risingAbove : Nat → Memory → Bool
  | _, [] => true
  | lo, (a, _) :: rest => decide (lo < a) && Memory.risingAbove a rest

/-- The canonical form of a buffer: indices strictly rising, each below `BLOCK_LEN`. An unlisted index has no value, so no
entry can equal what it reads as. -/
def Memory.wf : Memory → Bool
  | [] => true
  | (a, v) :: rest => Memory.risingAbove a rest && ((a, v) :: rest).all (fun c => decide (c.1 < Config.blockLen))

/-- The byte written last at index `a`; none where nothing has been written. -/
def Memory.read? : Memory → Nat → Option Byte
  | [], _ => none
  | (b, v) :: rest, a => if a = b then some v else Memory.read? rest a

/-- Write one byte, keeping the list sorted. -/
def Memory.write : Memory → Nat → Byte → Memory
  | [], a, v => [(a, v)]
  | (b, u) :: rest, a, v =>
    if a < b then (a, v) :: (b, u) :: rest
    else if a = b then (a, v) :: rest
    else (b, u) :: Memory.write rest a v

/-- The byte at index `a` of buffer `b`: a byte nothing has written is a free value, fixed for the run (R22, R23; log 3). -/
def Memory.byteAt (b : BufId) (m : Memory) (a : Nat) : Byte := (Memory.read? m a).getD (Config.unwrittenByte b a)

/-- The buffer `RXBUF[sel]` (R21). -/
def State.rxbuf (s : State) (sel : Bool) : Memory := if sel then s.rxB else s.rxA

/-- `RXBUF[sel]` by name: `SEL` = 0 is A, 1 is B (R21). -/
def rxBufId (sel : Bool) : BufId := if sel then .rxB else .rxA

/-- `MemRead(WRBUF, i, 1)` (R11, R206). -/
def wrbufByte (s : State) (i : Nat) : Byte := Memory.byteAt .wr s.wrbuf i

/-- `MemWrite(RXBUF[SEL], i, 1, v)` (R11, R212): the other buffer is not touched (R62). -/
def storeRx (i : Nat) (v : Byte) (s : State) : State :=
  { s with
    rxA := if s.sel then s.rxA else Memory.write s.rxA i v
    rxB := if s.sel then Memory.write s.rxB i v else s.rxB }

/-! ## The transport (00_scope.md R12; 20_memory.md R71 to R76) -/

/-- The byte the environment returns to the next `RxByte()`: the script's, or a free value past its end (R72; log 2). -/
def rxAnswer (s : State) : Byte :=
  match s.rx with
  | b :: _ => b
  | [] => Config.freeRx s.xn

/-- `TxByte(b)`: one exchange, the returned byte ignored (R12, R71). -/
def txByte (b : Byte) (s : State) : State := { s with wire := .tx b :: s.wire, xn := s.xn + 1 }

/-- What `RxByte()` does besides returning `rxAnswer s`: one exchange, `0xFF` going out (R12, R72, R76). -/
def rxByte (s : State) : State := { s with wire := .rx (rxAnswer s) :: s.wire, xn := s.xn + 1, rx := s.rx.tail }

/-- `CsHigh()`: deassert chip-select, no exchange (R12, R73). -/
def csHigh (s : State) : State := { s with csn := true, wire := .csHigh :: s.wire }

/-- `CsLow()`: assert chip-select, no exchange (R12, R73). -/
def csLow (s : State) : State := { s with csn := false, wire := .csLow :: s.wire }

/-! ## Ends and positions (00_scope.md R13; 10_state.md R37 to R39) -/

/-- `complete(ok, val)` (R13). The core has no exceptions: this is also how a failure is reported. -/
def complete (ok : Bool) (val : BitVec 40) (s : State) : Answer :=
  .next { s with ok := ok, val := val, busy := false, ph := .idle }

/-- `return FAIL` of WRBLK and RDBLK: `complete(0, 0)`, nothing saved, nothing undone (R13; 60_exceptions.md R235). -/
def returnFail (s : State) : Answer := complete false 0#40 s

/-- `return SUCCESS` of WRBLK and RDBLK: `complete(1, 0)` (R13). -/
def returnSuccess (s : State) : Answer := complete true 0#40 s

/-- Move to a phase that does not count (R39). -/
def goto (ph : Phase) (s : State) : Answer := .next { s with ph := ph }

/-- Enter a counted phase at `CNT` = `c` (R39). -/
def gotoAt (ph : Phase) (c : BitVec 10) (s : State) : Answer := .next { s with ph := ph, cnt := c }

/-- Stay in a counted phase and count one step (R39). -/
def countUp (s : State) : Answer := .next { s with cnt := s.cnt + 1#10 }

/-- A position the step table of the operation does not hold (R37; log 8). -/
def offTable : Answer := .fault .offTable

/-! ## The request register and the reset input (10_state.md R34, R43) -/

/-- Acceptance of a request: `CUR_OP <- OP`, `OPD <- OPERAND`, `BUSY <- 1` (R34). -/
def accept (op : BitVec 4) (operand : BitVec 40) (s : State) : State :=
  { s with curOp := op, opd := operand, busy := true }

/-- The host writes `WRBUF[i]` (R23, R85). -/
def hostWriteWrbuf (i : Fin 512) (v : Byte) (s : State) : State := { s with wrbuf := Memory.write s.wrbuf i.val v }

/-- The hardware reset: every register at its reset value, no exchange; the buffers, the card's stream and what host and
environment will do are not the core's registers and stay (R43, R261, R262; log 4, log 12). -/
def hardReset (s : State) : State :=
  { State.reset with
    rxA := s.rxA, rxB := s.rxB, wrbuf := s.wrbuf, xn := s.xn, wire := s.wire, rx := s.rx, host := s.host }

end Sys2Proof.Machine
end

