-- ==== Sys2Proof/Machine/Operands.lean ====
section
/-! DEFINITION. Operand forms: the words the core executes, the frame of a command, and the packing of bytes into wider
values (30_encoding.md R109 to R112; 20_memory.md R65, R67; 41_command_framer.md R150). -/

namespace Sys2Proof.Machine

/-- Six bytes as one number, the first on the wire most significant (R67, R101). -/
def wordOfBytes (f : Vector Byte 6) : FrameWord := f[0] ++ f[1] ++ f[2] ++ f[3] ++ f[4] ++ f[5]

/-- The six bytes of a 48-bit word in wire order (R101). -/
def bytesOfWord (w : FrameWord) : Vector Byte 6 :=
  #v[w.extractLsb' 40 8, w.extractLsb' 32 8, w.extractLsb' 24 8, w.extractLsb' 16 8, w.extractLsb' 8 8, w.extractLsb' 0 8]

/-- The frame `SendCommand(code, arg)` builds (R112, R150). -/
def buildFrame (code : BitVec 6) (arg : BitVec 32) : Vector Byte 6 :=
  #v[commandByte code, arg.extractLsb' 24 8, arg.extractLsb' 16 8, arg.extractLsb' 8 8, arg.extractLsb' 0 8,
     checksumByte (frameCrc code arg)]

/-- Entry of `SendCommand(code, arg)`: build `FRM`, `CNT <- 0`, `PH <- FRAME` (R151). -/
def enterFrame (code : BitVec 6) (arg : BitVec 32) (s : State) : Answer :=
  .next { s with frm := buildFrame code arg, cnt := 0#10, ph := .frame }

/-- `RESP` as a 40-bit value, `RESP[0]` most significant (R32, R36, R67). -/
def packResp (r : Vector Byte 5) : BitVec 40 := r[0] ++ r[1] ++ r[2] ++ r[3] ++ r[4]

/-- `EXP5` as five bytes, bits 39:32 first (R111). -/
def unpackExp (e : BitVec 40) : Vector Byte 5 :=
  #v[e.extractLsb' 32 8, e.extractLsb' 24 8, e.extractLsb' 16 8, e.extractLsb' 8 8, e.extractLsb' 0 8]

/-- Store byte `c` of a response (R24). -/
def storeResp (c : Nat) (v : Byte) (s : State) : State := { s with resp := s.resp.setIfInBounds c v }

end Sys2Proof.Machine
end

