-- ==== Sys2Proof/Machine/Flags.lean ====
section
/-! DEFINITION. The flags `BUSY`, `OK`, `SEL`, `CSN` (10_state.md R40), the comparisons that compute `OK` (R31), and what the
host reads: `STATUS`, `VAL`, `RESP` and the buffer windows (R35, R36). -/

namespace Sys2Proof.Machine

/-- The code of `RESP_LEN`: how many bytes the last capture wrote (R25). -/
def RespLen.code : RespLen → BitVec 3
  | .none0 => 0#3
  | .short1 => 1#3
  | .ext5 => 5#3

/-- The code of `ISEQ` (R26). -/
def ISeq.code : ISeq → BitVec 3
  | .sOff => 0#3
  | .sReset => 1#3
  | .sGoIdle => 2#3
  | .sCheckIf => 3#3
  | .sAppCmd => 4#3
  | .sAppOpCond => 5#3
  | .sReady => 6#3

/-- Idle if and only if the byte equals `0xFF` exactly (30_encoding.md R108). -/
def isIdleByte (b : Byte) : Bool := b == Config.idle

/-- `matchesShort(expected)`: whole-byte equality with `RESP[0]` (42_response_reader.md R165). -/
def matchesShort (expected : Byte) (s : State) : Bool := s.resp[0] == expected

/-- `matchesExtended(expected[5])`: all five bytes equal (42_response_reader.md R167). -/
def matchesExtended (expected : Vector Byte 5) (s : State) : Bool :=
  s.resp[0] == expected[0] && s.resp[1] == expected[1] && s.resp[2] == expected[2] && s.resp[3] == expected[3] &&
  s.resp[4] == expected[4]

/-- Did the card accept the written data? Whole-byte equality with `WR_ACCEPT` (44_block_io.md R204). -/
def isAccepted (b : Byte) : Bool := b == Config.wrAccept

/-- `STATUS`: `CUR_OP`, `ISEQ`, `RESP_LEN`, `CSN`, `SEL`, `OK`, `BUSY`, the last in bit 0 (R35). -/
def State.status (s : State) : BitVec 14 :=
  s.curOp ++ s.iseq.code ++ s.respLen.code ++ BitVec.ofBool s.csn ++ BitVec.ofBool s.sel ++ BitVec.ofBool s.ok ++
  BitVec.ofBool s.busy

/-- Register `RESP` as the host reads it (R36). -/
def State.respReg (s : State) : BitVec 40 := packResp s.resp

/-- A buffer window as the host reads it (R36): reading has no side effect (20_memory.md R76). During a RDBLK the filling
buffer shows the new bytes below `CNT` and the old ones above (20_memory.md R86). -/
def State.window (s : State) (b : BufId) (i : Fin 512) : Byte :=
  match b with
  | .wr => Memory.byteAt .wr s.wrbuf i.val
  | .rxA => Memory.byteAt .rxA s.rxA i.val
  | .rxB => Memory.byteAt .rxB s.rxB i.val

end Sys2Proof.Machine
end

