-- ==== Sys2Proof/Machine/Framer.lean ====
section
/-! DEFINITION. The Command Framer (41_command_framer.md): the steps of phase `FRAME`, SENDCMD, and the seven command
frames of the opcode table (30_encoding.md R117). -/

namespace Sys2Proof.Machine

/-- One step of phase `FRAME` with the frame `f` (R151): `TxByte(f[CNT])`, `CNT <- CNT + 1`; after byte 5 the caller's
continuation. -/
def sendFrameByte (f : Vector Byte 6) (after : State → Answer) (s : State) : Answer :=
  if h : s.cnt.toNat < 5 then countUp (txByte f[s.cnt.toNat] s)
  else if s.cnt = 5#10 then after { txByte f[5] s with cnt := 6#10 }
  else offTable

/-- SENDCMD (R150, R151). -/
def execSendcmd (code : BitVec 6) (arg : BitVec 32) (s : State) : Answer :=
  match s.ph with
  | .idle => enterFrame code arg s
  | .frame => sendFrameByte s.frm (complete true 0#40) s
  | .pre | .scan | .cap | .disc | .lead | .data | .wresp | .token | .trail => offTable

/-- The continuation after a frame's last byte, by the operation in progress: SENDCMD completes, and INIT, WRBLK and RDBLK
read the response (R151). -/
def afterFrame (op : BitVec 4) (s : State) : Answer :=
  if op = 0x2#4 then complete true 0#40 s
  else if op = 0x7#4 ∨ op = 0x8#4 ∨ op = 0x9#4 then goto .scan s
  else offTable

/-- A command frame as an instruction: in phase `FRAME`, send its byte number `CNT` (R151; log 7). -/
def transmit (i : Instr) (s : State) : Answer :=
  if s.ph = .frame then sendFrameByte (bytesOfWord (encode i)) (afterFrame s.curOp) s else offTable

/-- `CMD0` (R117, R182). -/
def execCmd0 (s : State) : Answer := transmit .cmd0 s
/-- `CMD8` (R117, R183). -/
def execCmd8 (s : State) : Answer := transmit .cmd8 s
/-- `CMD55` (R117, R184). -/
def execCmd55 (s : State) : Answer := transmit .cmd55 s
/-- `CMD41` (R117, R185). -/
def execCmd41 (s : State) : Answer := transmit .cmd41 s
/-- `CMD17` (R117, 44_block_io.md R203, R210). -/
def execCmd17 (addr : BitVec 32) (crc : BitVec 7) (s : State) : Answer := transmit (.cmd17 addr crc) s
/-- `CMD24` (R117, 44_block_io.md R200, R203). -/
def execCmd24 (addr : BitVec 32) (crc : BitVec 7) (s : State) : Answer := transmit (.cmd24 addr crc) s
/-- `CMDn`, the general frame (R101, R150). -/
def execCmdn (code : BitVec 6) (arg : BitVec 32) (crc : BitVec 7) (s : State) : Answer := transmit (.cmdn code arg crc) s

end Sys2Proof.Machine
end

