-- ==== Sys2Proof/Machine/Reader.lean ====
section
/-! DEFINITION. The Response Reader (42_response_reader.md): idle skip, capture and trailing discard as steps, RDRESP1 and
RDRESP5, and the comparisons MATCH1 and MATCH5. -/

namespace Sys2Proof.Machine

/-- `TOK <- RxByte()` (R161). -/
def readTok (s : State) : State := { rxByte s with tok := rxAnswer s }

/-- Phase `SCAN` of `ReadShort` (R162): an idle byte keeps scanning, any other is `RESP[0]`. -/
def scanShort (s : State) : Answer :=
  if isIdleByte (rxAnswer s) then goto .scan (readTok s)
  else goto .disc { storeResp 0 (rxAnswer s) (readTok s) with respLen := .short1 }

/-- Phase `SCAN` of `ReadExtended` (R164): the first non-idle byte is `RESP[0]`, then `CAP` from `CNT` = 1. -/
def scanExtended (s : State) : Answer :=
  if isIdleByte (rxAnswer s) then goto .scan (readTok s)
  else gotoAt .cap 1#10 (storeResp 0 (rxAnswer s) (readTok s))

/-- Phase `CAP` (R164): bytes 1 to 4 are stored whatever their value. -/
def captureByte (s : State) : Answer :=
  let t := storeResp s.cnt.toNat (rxAnswer s) (rxByte s)
  if 1 ≤ s.cnt.toNat ∧ s.cnt.toNat ≤ 3 then countUp t
  else if s.cnt = 4#10 then gotoAt .disc 5#10 { t with respLen := .ext5 }
  else offTable

/-- Phase `DISC` (R162, R164): one byte read and not examined, then the caller's continuation in the same step. -/
def discardByte (after : State → Answer) (s : State) : Answer := after (rxByte s)

/-- RDRESP1 (R161, R162). -/
def execRdresp1 (s : State) : Answer :=
  match s.ph with
  | .idle => goto .scan s
  | .scan => scanShort s
  | .disc => discardByte (fun t => complete true (t.resp[0].setWidth 40) t) s
  | .pre | .frame | .cap | .lead | .data | .wresp | .token | .trail => offTable

/-- RDRESP5 (R163, R164). -/
def execRdresp5 (s : State) : Answer :=
  match s.ph with
  | .idle => goto .scan s
  | .scan => scanExtended s
  | .cap => captureByte s
  | .disc => discardByte (fun t => complete true (packResp t.resp) t) s
  | .pre | .frame | .lead | .data | .wresp | .token | .trail => offTable

/-- MATCH1 (R165): compares whatever `RESP_LEN` is. -/
def execMatch1 (exp : Byte) (s : State) : Answer := complete (matchesShort exp s) 0#40 s

/-- MATCH5 (R167): compares all five bytes whatever `RESP_LEN` is. -/
def execMatch5 (exp : BitVec 40) (s : State) : Answer := complete (matchesExtended (unpackExp exp) s) 0#40 s

end Sys2Proof.Machine
end

