-- ==== Sys2Proof/Machine/Block.lean ====
section
/-! DEFINITION. Block I/O (44_block_io.md): WRBLK (R200, R215) and RDBLK (R210, R216), step by step. -/

namespace Sys2Proof.Machine

/-- Phase `LEAD` of WRBLK: two idle bytes and the data start token (R202). -/
def leadByte (s : State) : Answer :=
  if s.cnt.toNat < 2 then countUp (txByte Config.idle s)
  else if s.cnt = 2#10 then gotoAt .data 0#10 (txByte Config.token s)
  else offTable

/-- Phase `DATA` of WRBLK: `TxByte(WRBUF[CNT])`, the byte read in the step that sends it (R206). -/
def sendDataByte (s : State) : Answer :=
  let t := txByte (wrbufByte s s.cnt.toNat) s
  if s.cnt.toNat < 511 then countUp t
  else if s.cnt = 511#10 then gotoAt .wresp 512#10 t
  else offTable

/-- Phase `WRESP`: exactly one `RxByte()`, compared whole with `WR_ACCEPT`; failure cause `W2` (R204). -/
def writeResponse (s : State) : Answer :=
  if isAccepted (rxAnswer s) then returnSuccess (readTok s) else returnFail (readTok s)

/-- WRBLK (R200, R215); failure cause `W1` in phase `DISC` (R201). -/
def execWrblk (addr : BitVec 32) (s : State) : Answer :=
  match s.ph with
  | .idle => enterFrame Config.cmd24 addr s
  | .frame => sendFrameByte s.frm (goto .scan) s
  | .scan => scanShort s
  | .disc => discardByte (fun t => if matchesShort Config.r1Ready t then gotoAt .lead 0#10 t else returnFail t) s
  | .lead => leadByte s
  | .data => sendDataByte s
  | .wresp => writeResponse s
  | .pre | .cap | .token | .trail => offTable

/-- Phase `TOKEN` of RDBLK: skip idle bytes; `0xFE` toggles the selector, any other byte is failure cause `R2`
(R211, R214). -/
def tokenScan (s : State) : Answer :=
  if isIdleByte (rxAnswer s) then goto .token (readTok s)
  else if rxAnswer s = Config.token then gotoAt .data 0#10 { readTok s with sel := !s.sel }
  else returnFail (readTok s)

/-- Phase `DATA` of RDBLK: `RXBUF[SEL][CNT] <- RxByte()`, the byte not examined (R212). -/
def receiveDataByte (s : State) : Answer :=
  let t := storeRx s.cnt.toNat (rxAnswer s) (rxByte s)
  if s.cnt.toNat < 511 then countUp t
  else if s.cnt = 511#10 then gotoAt .trail 0#10 t
  else offTable

/-- Phase `TRAIL` of RDBLK: three bytes read and dropped, then success (R213). -/
def trailByte (s : State) : Answer :=
  let t := rxByte s
  if s.cnt.toNat < 2 then countUp t
  else if s.cnt = 2#10 then returnSuccess { t with cnt := 3#10 }
  else offTable

/-- RDBLK (R210, R216); failure cause `R1` in phase `DISC`. -/
def execRdblk (addr : BitVec 32) (s : State) : Answer :=
  match s.ph with
  | .idle => enterFrame Config.cmd17 addr s
  | .frame => sendFrameByte s.frm (goto .scan) s
  | .scan => scanShort s
  | .disc => discardByte (fun t => if matchesShort Config.r1Ready t then goto .token t else returnFail t) s
  | .token => tokenScan s
  | .data => receiveDataByte s
  | .trail => trailByte s
  | .pre | .cap | .lead | .wresp => offTable

end Sys2Proof.Machine
end

