-- ==== Sys2Proof/Machine/Control.lean ====
section
/-! DEFINITION. The operations that make no exchange and touch nothing but the result: NOP (30_encoding.md R123), the six
reserved codes (R114) and the Checksum Unit's CRC7UPD (40_checksum.md R140). Each completes in the step that accepts it
(10_state.md R38). -/

namespace Sys2Proof.Machine

/-- NOP: `complete(1, 0)` (R123). -/
def execNop (s : State) : Answer := complete true 0#40 s

/-- CRC7UPD: `VAL <- zext_40(update(ACC, BYTE))`, `OK <- 1` (R140). -/
def execCrc7upd (acc : BitVec 7) (byte : Byte) (s : State) : Answer :=
  complete true ((crcUpdate acc byte).setWidth 40) s

/-- A reserved code: `complete(0, 0)`, no exchange, no other change (R114; log 9). -/
def reservedCode (s : State) : Answer := complete false 0#40 s

/-- Reserved code `0xA` (R114). -/
def execReservedA (s : State) : Answer := reservedCode s
/-- Reserved code `0xB` (R114). -/
def execReservedB (s : State) : Answer := reservedCode s
/-- Reserved code `0xC` (R114). -/
def execReservedC (s : State) : Answer := reservedCode s
/-- Reserved code `0xD` (R114). -/
def execReservedD (s : State) : Answer := reservedCode s
/-- Reserved code `0xE` (R114). -/
def execReservedE (s : State) : Answer := reservedCode s
/-- Reserved code `0xF` (R114). -/
def execReservedF (s : State) : Answer := reservedCode s

end Sys2Proof.Machine
end

