-- ==== Sys2Proof/Machine/Init.lean ====
section
/-! DEFINITION. The Initialization Sequencer (43_init_sequencer.md), step by step (R188). -/

namespace Sys2Proof.Machine

/-- Acceptance of INIT: `ISEQ <- S_RESET`, `CsHigh()`, `CNT <- 0`, `PH <- PRE`, whatever `ISEQ` was (R188, R190). -/
def initEntry (s : State) : Answer := gotoAt .pre 0#10 { csHigh s with iseq := .sReset }

/-- Phase `PRE`: ten idle bytes with chip-select high; after the tenth, chip-select low and the first `CMD0` (R181, R188). -/
def preambleByte (s : State) : Answer :=
  let t := txByte Config.idle s
  if s.cnt.toNat < 9 then countUp t
  else if s.cnt = 9#10 then enterFrame Config.cmd0 0#32 { csLow t with iseq := .sGoIdle }
  else offTable

/-- Phase `SCAN` of INIT: extended after `CMD8`, short after every other command (30_encoding.md R105). -/
def initScan (s : State) : Answer :=
  match s.iseq with
  | .sGoIdle | .sAppCmd | .sAppOpCond => scanShort s
  | .sCheckIf => scanExtended s
  | .sOff | .sReset | .sReady => offTable

/-- The decision after a response's discard (R186, R188): every mismatch sends a command again. -/
def initDecide (s : State) : Answer :=
  match s.iseq with
  | .sGoIdle =>
    if matchesShort Config.r1IdleState s then enterFrame Config.cmd8 Config.cmd8Arg { s with iseq := .sCheckIf }
    else enterFrame Config.cmd0 0#32 s
  | .sCheckIf =>
    if matchesExtended Config.r7Check s then enterFrame Config.cmd55 0#32 { s with iseq := .sAppCmd }
    else enterFrame Config.cmd8 Config.cmd8Arg s
  | .sAppCmd =>
    if matchesShort Config.r1IdleState s then enterFrame Config.cmd41 Config.cmd41Arg { s with iseq := .sAppOpCond }
    else enterFrame Config.cmd55 0#32 s
  | .sAppOpCond =>
    if matchesShort Config.r1Ready s then complete true 0#40 { s with iseq := .sReady }
    else enterFrame Config.cmd55 0#32 { s with iseq := .sAppCmd }
  | .sOff | .sReset | .sReady => offTable

/-- INIT (R180, R188): one step of the table at (`ISEQ`, `PH`, `CNT`). -/
def execInit (s : State) : Answer :=
  match s.ph with
  | .idle => initEntry s
  | .pre => if s.iseq = .sReset then preambleByte s else offTable
  | .frame => sendFrameByte s.frm (goto .scan) s
  | .scan => initScan s
  | .cap => if s.iseq = .sCheckIf then captureByte s else offTable
  | .disc => discardByte initDecide s
  | .lead | .data | .wresp | .token | .trail => offTable

end Sys2Proof.Machine
end

