-- ==== Sys2Proof/Machine/Dispatch.lean ====
section
/-! DEFINITION. exec: one arm per constructor of Instr, each one direct call of its meaning. -/

namespace Sys2Proof.Machine

/-- One step of the instruction `i` in the state `s` (10_state.md R38). -/
def exec (i : Instr) (s : State) : Host.Outcome State Fault Refusal :=
  match i with
  | .nop => Sys2Proof.Machine.execNop s
  | .crc7upd acc byte => Sys2Proof.Machine.execCrc7upd acc byte s
  | .sendcmd code arg => Sys2Proof.Machine.execSendcmd code arg s
  | .rdresp1 => Sys2Proof.Machine.execRdresp1 s
  | .rdresp5 => Sys2Proof.Machine.execRdresp5 s
  | .match1 exp => Sys2Proof.Machine.execMatch1 exp s
  | .match5 exp => Sys2Proof.Machine.execMatch5 exp s
  | .init => Sys2Proof.Machine.execInit s
  | .wrblk addr => Sys2Proof.Machine.execWrblk addr s
  | .rdblk addr => Sys2Proof.Machine.execRdblk addr s
  | .reservedA => Sys2Proof.Machine.execReservedA s
  | .reservedB => Sys2Proof.Machine.execReservedB s
  | .reservedC => Sys2Proof.Machine.execReservedC s
  | .reservedD => Sys2Proof.Machine.execReservedD s
  | .reservedE => Sys2Proof.Machine.execReservedE s
  | .reservedF => Sys2Proof.Machine.execReservedF s
  | .cmd0 => Sys2Proof.Machine.execCmd0 s
  | .cmd8 => Sys2Proof.Machine.execCmd8 s
  | .cmd55 => Sys2Proof.Machine.execCmd55 s
  | .cmd41 => Sys2Proof.Machine.execCmd41 s
  | .cmd17 addr crc => Sys2Proof.Machine.execCmd17 addr crc s
  | .cmd24 addr crc => Sys2Proof.Machine.execCmd24 addr crc s
  | .cmdn code arg crc => Sys2Proof.Machine.execCmdn code arg crc s

end Sys2Proof.Machine
end

