-- ==== Sys2Proof/Machine/Fetch.lean ====
section
/-! DEFINITION. Which word the next step executes, and what a move of the host does (10_state.md R34, R37, R38; log 5, log 7,
log 13). -/

namespace Sys2Proof.Machine

/-- The word the core's next step executes while `BUSY` = 1: in phase `FRAME` the frame in `FRM`, in every other phase the
request latched in `CUR_OP` and `OPD` (R37; log 7). -/
def fetchWord (s : State) : TableWord :=
  if s.ph = .frame then wordOfBytes s.frm else tableOfReq (reqOf s.curOp s.opd)

/-- One step of the core: the operation in progress takes one step of its table; an idle core does nothing (R30, R38). -/
def coreStep (s : State) : Answer :=
  if s.busy then
    match decode (fetchWord s) with
    | .ok i => exec i s
    | .error _ => .fault .badFrame
  else .next s

/-- The host writes `REQ`: with `BUSY` = 0 the request is accepted and its first step, the acceptance, taken; with `BUSY` = 1 it
is dropped (R34; 30_encoding.md R113; log 10). -/
def writeReq (w : ReqWord) (s : State) : Answer :=
  if s.busy then .next s else exec (decodeReq w) (accept (reqOp w) (reqOperand w) s)

/-- A move of the host, in a state whose list of moves it has left. -/
def hostStep (m : HostMove) (s : State) : Answer :=
  match m with
  | .pass => coreStep s
  | .writeReq w => writeReq w s
  | .writeWrbuf i v => .next (hostWriteWrbuf i v s)
  | .reset => .next (hardReset s)

/-- Make the table word `w` what the next step executes. A request word is the host's next write of `REQ`, to an idle core; any
other word is put into `FRM` as the frame a SENDCMD is about to send (log 13). -/
def loadWord (w : TableWord) (s : State) : State :=
  if w.extractLsb' 44 4 = 0#4 then
    { s with host := .writeReq (w.extractLsb' 0 44) :: s.host, busy := false, ph := .idle }
  else
    { s with
      host := .pass :: s.host, busy := true, ph := .frame, cnt := 0#10, frm := bytesOfWord w, curOp := 0x2#4,
      opd := 0#2 ++ (w.extractLsb' 40 6 : BitVec 6) ++ (w.extractLsb' 8 32 : BitVec 32) }

end Sys2Proof.Machine
end

