-- ==== Sys2Proof/Machine/Step.lean ====
section
/-! DEFINITION. One step of the machine: the host's next move, or the core's step when the host makes none (10_state.md R38). -/

namespace Sys2Proof.Machine

/-- One step. -/
def step (s : State) : Host.Outcome State Fault Refusal :=
  match s.host with
  | [] => coreStep s
  | m :: rest => hostStep m { s with host := rest }

/-- `s` with the instruction of the table word `w` stored where `step` fetches its next instruction (log 13). -/
def State.withFetchWord (s : State) (nbits w : Nat) : State := loadWord (tableWordOf nbits w) s

end Sys2Proof.Machine
end

