-- ==== Sys2Proof/Safety.lean ====
section
/-! DEFINITION. What counts as a sound state, in the terms the claims use: the invariant every step keeps and no sound state is
stuck under (10_state.md R21 to R39; the step tables R151, R162, R164, R188, R215, R216). -/

namespace Sys2Proof.Safety

open Sys2Proof.Machine

/-- The three buffers keep their canonical form (20_memory.md R60, R61). -/
def buffersOk (s : State) : Bool := Memory.wf s.wrbuf && Memory.wf s.rxA && Memory.wf s.rxB

/-- `FRM` is the frame `SendCommand(code, arg)` built and `CNT` one of its six indices (R151). -/
def framing (code : BitVec 6) (arg : BitVec 32) (s : State) : Bool :=
  s.ph == .frame && decide (s.cnt.toNat < 6) && s.frm == buildFrame code arg

/-- `PH` is the short read's `SCAN`, or `DISC` after a short capture (R162). -/
def readingShort (s : State) : Bool := s.ph == .scan || (s.ph == .disc && s.respLen == .short1)

/-- `PH` is the extended read's `SCAN`, `CAP` at index 1 to 4 with a first byte that is not idle, or `DISC` after the capture
(R164). -/
def readingExtended (s : State) : Bool :=
  s.ph == .scan ||
  (s.ph == .cap && decide (1 ≤ s.cnt.toNat) && decide (s.cnt.toNat ≤ 4) && s.resp[0] != Config.idle) ||
  (s.ph == .disc && s.respLen == .ext5)

/-- INIT at a row of its table (R188). -/
def initPosition (s : State) : Bool :=
  match s.iseq with
  | .sReset => s.ph == .pre && decide (s.cnt.toNat < Config.preambleLen)
  | .sGoIdle => framing Config.cmd0 0#32 s || readingShort s
  | .sCheckIf => framing Config.cmd8 Config.cmd8Arg s || readingExtended s
  | .sAppCmd => framing Config.cmd55 0#32 s || readingShort s
  | .sAppOpCond => framing Config.cmd41 Config.cmd41Arg s || readingShort s
  | .sOff | .sReady => false

/-- The command code and argument operand fields of `OPD` (30_encoding.md R111). -/
def opdCode (s : State) : BitVec 6 := s.opd.extractLsb' 32 6
/-- `ARG` or `ADDR` of `OPD` (30_encoding.md R111). -/
def opdArg (s : State) : BitVec 32 := s.opd.extractLsb' 0 32

/-- WRBLK at a row of its table (R215): the payload is sent only after the short response `0x00`. -/
def wrblkPosition (s : State) : Bool :=
  framing Config.cmd24 (opdArg s) s || readingShort s ||
  (s.ph == .lead && decide (s.cnt.toNat < 3) && s.resp[0] == Config.r1Ready) ||
  (s.ph == .data && decide (s.cnt.toNat < Config.blockLen) && s.resp[0] == Config.r1Ready) ||
  (s.ph == .wresp && s.resp[0] == Config.r1Ready)

/-- RDBLK at a row of its table (R216). -/
def rdblkPosition (s : State) : Bool :=
  framing Config.cmd17 (opdArg s) s || readingShort s ||
  (s.ph == .token && s.resp[0] == Config.r1Ready) ||
  (s.ph == .data && decide (s.cnt.toNat < Config.blockLen) && s.resp[0] == Config.r1Ready) ||
  (s.ph == .trail && decide (s.cnt.toNat < Config.rdTrail) && s.resp[0] == Config.r1Ready)

/-- `PH` is `IDLE` when `BUSY` = 0 (R37); between two steps `BUSY` = 1 only at a row of the step table of SENDCMD, RDRESP1,
RDRESP5, INIT, WRBLK or RDBLK (R38). -/
def positionOk (s : State) : Bool :=
  if s.busy then
    match s.curOp with
    | 0x2#4 => framing (opdCode s) (opdArg s) s
    | 0x3#4 => readingShort s
    | 0x4#4 => readingExtended s
    | 0x7#4 => initPosition s
    | 0x8#4 => wrblkPosition s
    | 0x9#4 => rdblkPosition s
    | _ => false
  else s.ph == .idle

/-- The sequencer states in which chip-select is high: before the first INIT and in its preamble (R27; 43_init_sequencer.md R181). -/
def deselected : ISeq → Bool
  | .sOff | .sReset => true
  | .sGoIdle | .sCheckIf | .sAppCmd | .sAppOpCond | .sReady => false

/-- Chip-select is high exactly in those states (R27; 43_init_sequencer.md R181, R187). -/
def chipSelectOk (s : State) : Bool := s.csn == deselected s.iseq

/-- Outside a running INIT the sequencer state is `S_OFF` or `S_READY` (R26, R187). -/
def sequencerOk (s : State) : Bool :=
  (s.busy && s.curOp == 0x7#4) || s.iseq == .sOff || s.iseq == .sReady

/-- A captured `RESP[0]` is never the idle byte (R24), and before the first capture `RESP` holds its reset value (R25, R43). -/
def responseOk (s : State) : Bool :=
  match s.respLen with
  | .none0 => s.ph == .cap || s.resp == State.reset.resp
  | .short1 | .ext5 => s.resp[0] != Config.idle

/-- The invariant of the machine. -/
def inv (s : State) : Bool :=
  buffersOk s && positionOk s && chipSelectOk s && sequencerOk s && responseOk s

/-- The number of exchanges among the events of a transport stream: chip-select events are none (20_memory.md R73). -/
def exchangesOf : List Event → Nat
  | [] => 0
  | .tx _ :: rest => exchangesOf rest + 1
  | .rx _ :: rest => exchangesOf rest + 1
  | .csHigh :: rest => exchangesOf rest
  | .csLow :: rest => exchangesOf rest

/-- The position of the card's stream is the number of exchanges on the wire (10_state.md R41(b)). -/
def streamCounted (s : State) : Bool := s.xn == exchangesOf s.wire

/-- The bytes sent by `TxByte`, newest first. -/
def sentBytes : List Event → List Byte
  | [] => []
  | .tx b :: rest => b :: sentBytes rest
  | .rx _ :: rest => sentBytes rest
  | .csHigh :: rest => sentBytes rest
  | .csLow :: rest => sentBytes rest

end Sys2Proof.Safety
end

