-- ==== Sys2Proof/Certificates/Slice0/Obligations.lean ====
section
/-! DEFINITION. The statements for the provers. -/

open Sys2Proof Sys2Proof.Machine Sys2Proof.Safety

/-! ## Reset, the host's registers, acceptance -/

/-- 10_state.md R43, 70_reset_and_hazards.md R261: the reset input sets every register that has a reset value, at any time and
whatever operation is in progress, performs no exchange and leaves the buffers as they are; the reset state has the same values.
That it also leaves the record of events whole, with no chip-select event on it, and the script and the host's coming moves, is the
model's choice (log 12), not the spec's. (`OPD`, `FRM`, `TOK`, `CNT` have no reset value in the spec, and nothing is said of them.) -/
def Obligations.ResetSetsEveryRegister : Prop :=
  (∀ (s : State) (rest : List HostMove), s.host = .reset :: rest →
    ∃ t, step s = .next t ∧
      t.sel = true ∧ t.resp = #v[0xFF#8, 0xFF#8, 0xFF#8, 0xFF#8, 0xFF#8] ∧ t.respLen = .none0 ∧ t.iseq = .sOff ∧
      t.csn = true ∧ t.busy = false ∧ t.ok = false ∧ t.val = 0#40 ∧ t.curOp = 0#4 ∧ t.ph = .idle ∧
      (∀ b i, t.window b i = s.window b i) ∧
      t.xn = s.xn ∧ t.wire = s.wire ∧ t.rx = s.rx ∧ t.host = rest) ∧
  (State.reset.sel = true ∧ State.reset.resp = #v[0xFF#8, 0xFF#8, 0xFF#8, 0xFF#8, 0xFF#8] ∧
    State.reset.respLen = .none0 ∧ State.reset.iseq = .sOff ∧ State.reset.csn = true ∧ State.reset.busy = false ∧
    State.reset.ok = false ∧ State.reset.val = 0#40 ∧ State.reset.curOp = 0#4 ∧ State.reset.ph = .idle)

/-- 10_state.md R35: where each field of `STATUS` is, which values `RESP_LEN` can show, what it reads after reset, and that the
host's write of `WRBUF` leaves it alone, as does its write of `REQ` while `BUSY` = 1: every field is read-only to the host. -/
def Obligations.StatusShowsTheRegisters : Prop :=
  (∀ s : State,
    s.status.extractLsb' 0 1 = BitVec.ofBool s.busy ∧ s.status.extractLsb' 1 1 = BitVec.ofBool s.ok ∧
    s.status.extractLsb' 2 1 = BitVec.ofBool s.sel ∧ s.status.extractLsb' 3 1 = BitVec.ofBool s.csn ∧
    s.status.extractLsb' 4 3 = (match s.respLen with | .none0 => 0#3 | .short1 => 1#3 | .ext5 => 5#3) ∧
    s.status.extractLsb' 7 3 =
      (match s.iseq with
       | .sOff => 0#3 | .sReset => 1#3 | .sGoIdle => 2#3 | .sCheckIf => 3#3 | .sAppCmd => 4#3 | .sAppOpCond => 5#3
       | .sReady => 6#3) ∧
    s.status.extractLsb' 10 4 = s.curOp) ∧
  State.reset.status = 0x000C#14 ∧
  (∀ (s : State) (m : HostMove) (rest : List HostMove), s.host = m :: rest →
    (∃ i v, m = .writeWrbuf i v) ∨ ((∃ w, m = .writeReq w) ∧ s.busy = true) →
    ∃ t, step s = .next t ∧ t.status = s.status)

/-- 10_state.md R36, 20_memory.md R67: register `RESP` shows `RESP[0]` in its most significant byte, and the buffer windows show
the byte written last at each index (a byte nothing has written is a free value, log 3, of which nothing is said). -/
def Obligations.HostReadsRespAndWindows : Prop :=
  ∀ s : State,
    (∀ k : Fin 5, s.respReg.extractLsb' (32 - 8 * k.val) 8 = s.resp[k.val]) ∧
    (∀ (i : Fin 512) (v : Byte), Memory.read? s.wrbuf i.val = some v → s.window .wr i = v) ∧
    (∀ (i : Fin 512) (v : Byte), Memory.read? s.rxA i.val = some v → s.window .rxA i = v) ∧
    (∀ (i : Fin 512) (v : Byte), Memory.read? s.rxB i.val = some v → s.window .rxB i = v)

/-- 10_state.md R34, 30_encoding.md R113: a request written with `BUSY` = 0 is latched and the operation starts; with `BUSY` = 1
it is dropped without any effect. -/
def Obligations.RequestAcceptedWhenIdleDroppedWhenBusy : Prop :=
  ∀ (s : State) (w : ReqWord) (rest : List HostMove), s.host = .writeReq w :: rest →
    (s.busy = false →
      step s = exec (decodeReq w)
        { s with host := rest, curOp := w.extractLsb' 40 4, opd := w.extractLsb' 0 40, busy := true }) ∧
    (s.busy = true → step s = .next { s with host := rest })

/-- A step runs the decoded instruction. While `BUSY` = 1 the word is the frame in `FRM` in phase `FRAME` and the latched
request in every other phase (the model's two-level reading, log 7); the host's request is run on acceptance. -/
def Obligations.StepRunsDecodedInstruction : Prop :=
  (∀ s : State, s.ph = .frame →
    fetchWord s = s.frm[0] ++ s.frm[1] ++ s.frm[2] ++ s.frm[3] ++ s.frm[4] ++ s.frm[5]) ∧
  (∀ s : State, s.ph ≠ .frame → fetchWord s = 0#4 ++ (s.curOp ++ s.opd)) ∧
  (∀ (s : State) (i : Instr), s.busy = true → decode (fetchWord s) = .ok i →
    (s.host = [] → step s = exec i s) ∧
    (∀ rest, s.host = .pass :: rest → step s = exec i { s with host := rest })) ∧
  (∀ (s : State) (i : Instr) (w : ReqWord) (rest : List HostMove), s.busy = false → s.host = .writeReq w :: rest →
    decode (0#4 ++ w) = .ok i →
    step s = exec i { s with host := rest, curOp := w.extractLsb' 40 4, opd := w.extractLsb' 0 40, busy := true })

/-- The word placed by `withFetchWord` is what the next step runs: a request as the host's write of `REQ` to an idle core, a
frame as the frame in `FRM` at index 0 of a SENDCMD (the model's convention, log 13). -/
def Obligations.LoadedWordIsExecutedNext : Prop :=
  ∀ (s : State) (nbits w : Nat) (i : Instr), decodeTableWord nbits w = some i →
    let v : TableWord := BitVec.ofNat 48 (w % 2 ^ nbits)
    (i.isFrame = false →
      step (s.withFetchWord nbits w) =
        exec i { s with busy := true, ph := .idle, curOp := v.extractLsb' 40 4, opd := v.extractLsb' 0 40 }) ∧
    (i.isFrame = true →
      step (s.withFetchWord nbits w) =
        exec i { s with busy := true, ph := .frame, cnt := 0#10, frm := bytesOfWord v, curOp := 0x2#4,
                        opd := 0#2 ++ (v.extractLsb' 40 6 : BitVec 6) ++ (v.extractLsb' 8 32 : BitVec 32) })

/-- 10_state.md R30, R43: an idle core waits; a step in which nobody moves changes nothing. -/
def Obligations.IdleCoreChangesNothing : Prop :=
  ∀ s : State, s.busy = false →
    (s.host = [] → step s = .next s) ∧ (∀ rest, s.host = .pass :: rest → step s = .next { s with host := rest })

/-- 10_state.md R23, 20_memory.md R85: the host's write of `WRBUF[i]` changes that byte and no other state, idle or busy. -/
def Obligations.HostWriteChangesOneWrbufByte : Prop :=
  ∀ (s : State) (i : Fin 512) (v : Byte) (rest : List HostMove), s.host = .writeWrbuf i v :: rest →
    ∃ m, step s = .next { s with host := rest, wrbuf := m } ∧
      Memory.read? m i.val = some v ∧ (∀ a, a ≠ i.val → Memory.read? m a = Memory.read? s.wrbuf a) ∧
      (Memory.wf s.wrbuf = true → Memory.wf m = true)

/-- 30_encoding.md R115: operand bits an operation does not list are ignored: the decoded instruction does not depend on them, and
neither does any step, since no meaning reads the operand latch. -/
def Obligations.IgnoredOperandBitsChangeNothing : Prop :=
  (∀ (op : BitVec 4) (a b : BitVec 40),
    (op = 0x1#4 → a.extractLsb' 0 15 = b.extractLsb' 0 15) →
    (op = 0x2#4 → a.extractLsb' 0 38 = b.extractLsb' 0 38) →
    (op = 0x5#4 → a.extractLsb' 0 8 = b.extractLsb' 0 8) →
    (op = 0x6#4 → a = b) →
    (op = 0x8#4 ∨ op = 0x9#4 → a.extractLsb' 0 32 = b.extractLsb' 0 32) →
    decodeReq (op ++ a) = decodeReq (op ++ b)) ∧
  (∀ (i : Instr) (s t : State) (o : BitVec 40), exec i s = .next t →
    exec i { s with opd := o } = .next { t with opd := o })

/-! ## Encodings -/

/-- Decode and encode agree: every well-formed instruction, with every operand, is read back from its word. -/
def Obligations.DecodeOfEncodeIsTheInstruction : Prop :=
  ∀ i : Instr, i.wf = true → decode (encode i) = .ok i

/-- Each word with a frame's start and end bits has one meaning: what it decodes to encodes to that word. That a word with wrong
checksum bits, which is no command frame by 30_encoding.md R101 and R122, decodes at all is the model's reading (log 14). -/
def Obligations.EncodeOfDecodedFrameIsTheWord : Prop :=
  ∀ w : FrameWord, w.extractLsb' 46 2 = 0b01#2 → w.extractLsb' 0 1 = 1#1 →
    ∃ i, decode w = .ok i ∧ i.isFrame = true ∧ encode i = w

/-- The decoder refuses exactly the words that have neither a request's four top bits 0 nor a frame's start and end bits. That it
looks no further, so that a word with wrong checksum bits decodes, is the model's reading (log 14): by 30_encoding.md R101 and R122
such a word is no command frame. -/
def Obligations.DecoderRefusesExactlyOtherWords : Prop :=
  ∀ w : TableWord,
    (decode w = .error .badEndBit ↔ w.extractLsb' 46 2 = 0b01#2 ∧ w.extractLsb' 0 1 = 0#1) ∧
    (decode w = .error .badStartBits ↔ w.extractLsb' 44 4 ≠ 0#4 ∧ w.extractLsb' 46 2 ≠ 0b01#2)

/-- Words written out from 30_encoding.md R109 to R111, R117 and 95_test_vectors.md (V63 for `CMD17`) decode to the instruction they
stand for. `CMD17`'s code is PRESUMED (log 6). -/
def Obligations.SampleWordsDecode : Prop :=
  decode 0x000000000000#48 = .ok .nop ∧
  decode 0x010000007FFF#48 = .ok (.crc7upd 0x7F#7 0xFF#8) ∧
  decode 0x0208000001AA#48 = .ok (.sendcmd 8#6 0x000001AA#32) ∧
  decode 0x030000000000#48 = .ok .rdresp1 ∧
  decode 0x06000000001A#48 = .ok (.match5 0x000000001A#40) ∧
  decode 0x080000000200#48 = .ok (.wrblk 0x00000200#32) ∧
  decode 0x0F123456789A#48 = .ok .reservedF ∧
  decode 0x400000000095#48 = .ok .cmd0 ∧
  decode 0x51123456785D#48 = .ok (.cmd17 0x12345678#32 0x2E#7) ∧
  decode 0x7FFFFFFFFF19#48 = .ok (.cmdn 63#6 0xFFFFFFFF#32 0x0C#7)

/-- 30_encoding.md R101, R102, R103: the frame `SendCommand(code, arg)` builds, field by field and bit by bit. -/
def Obligations.BuiltFrameHasTheLayout : Prop :=
  ∀ (code : BitVec 6) (arg : BitVec 32),
    let f := buildFrame code arg
    let w : FrameWord := f[0] ++ f[1] ++ f[2] ++ f[3] ++ f[4] ++ f[5]
    w.extractLsb' 46 2 = 0b01#2 ∧ w.extractLsb' 40 6 = code ∧ w.extractLsb' 8 32 = arg ∧
    w.extractLsb' 1 7 = crc7 [f[0], f[1], f[2], f[3], f[4]] ∧ w.extractLsb' 0 1 = 1#1 ∧
    f[0] = 0x40#8 ||| code.setWidth 8 ∧ f[0] = 0b01#2 ++ code ∧ 0x40 ≤ f[0].toNat ∧ f[0].toNat ≤ 0x7F ∧
    f[1] = arg.extractLsb' 24 8 ∧ f[2] = arg.extractLsb' 16 8 ∧ f[3] = arg.extractLsb' 8 8 ∧ f[4] = arg.extractLsb' 0 8 ∧
    f[5] = ((crc7 [f[0], f[1], f[2], f[3], f[4]]).setWidth 8 <<< 1) ||| 1#8 ∧
    f[5] = crc7 [f[0], f[1], f[2], f[3], f[4]] ++ 1#1 ∧ f[5].toNat % 2 = 1

/-- Every frame `SendCommand` builds decodes to a well-formed frame instruction whose word it is. -/
def Obligations.BuiltFrameDecodesWellFormed : Prop :=
  ∀ (code : BitVec 6) (arg : BitVec 32),
    ∃ i : Instr, decode (wordOfBytes (buildFrame code arg)) = .ok i ∧ i.isFrame = true ∧ i.wf = true ∧
      bytesOfWord (encode i) = buildFrame code arg

/-- 41_command_framer.md R152: the invariants of every frame the core ever sends. -/
def Obligations.SentFramesKeepTheirInvariants : Prop :=
  ∀ s : State, inv s = true → s.busy = true → s.ph = .frame →
    0x40 ≤ s.frm[0].toNat ∧ s.frm[0].toNat ≤ 0x7F ∧ s.frm[5].toNat % 2 = 1 ∧
    (crc7 [s.frm[0], s.frm[1], s.frm[2], s.frm[3], s.frm[4]]).setWidth 8 = s.frm[5] >>> 1 ∧
    crc7 s.frm.toList = 0x09#7 ∧ (∃ code arg, s.frm = buildFrame code arg)

/-- 30_encoding.md R117: the frames the sequencers send, byte for byte, with their checksums. -/
def Obligations.SequencerFramesByteForByte : Prop :=
  buildFrame Config.cmd0 0x00000000#32 = #v[0x40#8, 0x00#8, 0x00#8, 0x00#8, 0x00#8, 0x95#8] ∧
  buildFrame Config.cmd8 0x000001AA#32 = #v[0x48#8, 0x00#8, 0x00#8, 0x01#8, 0xAA#8, 0x87#8] ∧
  buildFrame Config.cmd55 0x00000000#32 = #v[0x77#8, 0x00#8, 0x00#8, 0x00#8, 0x00#8, 0x65#8] ∧
  buildFrame Config.cmd41 0x40000000#32 = #v[0x69#8, 0x40#8, 0x00#8, 0x00#8, 0x00#8, 0x77#8] ∧
  buildFrame Config.cmd17 0x00000000#32 = #v[0x51#8, 0x00#8, 0x00#8, 0x00#8, 0x00#8, 0x55#8] ∧
  buildFrame Config.cmd24 0x00000000#32 = #v[0x58#8, 0x00#8, 0x00#8, 0x00#8, 0x00#8, 0x6F#8] ∧
  frameCrc Config.cmd0 0x00000000#32 = 0x4A#7 ∧ frameCrc Config.cmd8 0x000001AA#32 = 0x43#7 ∧
  frameCrc Config.cmd55 0x00000000#32 = 0x32#7 ∧ frameCrc Config.cmd41 0x40000000#32 = 0x3B#7 ∧
  frameCrc Config.cmd17 0x00000000#32 = 0x2A#7 ∧ frameCrc Config.cmd24 0x00000000#32 = 0x37#7

/-! ## The Checksum Unit -/

open Polynomial in
/-- 40_checksum.md R141: with the accumulator and the byte read as polynomials over GF(2),
`update(A, B) = (A(x) * x^8 + B(x) * x^7) mod (x^7 + x^3 + 1)`: equal up to a multiple of the generator, and of degree below 7. -/
def Obligations.UpdateIsPolynomialRemainder : Prop :=
  let poly : Nat → (Nat → Bool) → (ZMod 2)[X] := fun n bit => ∑ i ∈ Finset.range n, if bit i then X ^ i else 0
  ∀ (acc : BitVec 7) (byte : Byte), ∃ q : (ZMod 2)[X],
    poly 7 (crcUpdate acc byte).getLsbD + q * (X ^ 7 + X ^ 3 + 1) =
      poly 7 acc.getLsbD * X ^ 8 + poly 8 byte.getLsbD * X ^ 7

open Polynomial in
/-- 40_checksum.md R141: running `update` over a message from 0 yields `(M(x) * x^7) mod G(x)`, `M` being the message as one
polynomial, first byte most significant. -/
def Obligations.MessageChecksumIsPolynomialRemainder : Prop :=
  let poly : Nat → (Nat → Bool) → (ZMod 2)[X] := fun n bit => ∑ i ∈ Finset.range n, if bit i then X ^ i else 0
  ∀ msg : List Byte, ∃ q : (ZMod 2)[X],
    poly 7 (crc7 msg).getLsbD + q * (X ^ 7 + X ^ 3 + 1) =
      (msg.foldl (fun m b => m * X ^ 8 + poly 8 b.getLsbD) 0) * X ^ 7

/-- 40_checksum.md R141: linearity, the table form and the two residues of `update`. -/
def Obligations.UpdateIsLinearTableAndResidue : Prop :=
  (∀ (a c : BitVec 7) (b d : Byte), crcUpdate (a ^^^ c) (b ^^^ d) = crcUpdate a b ^^^ crcUpdate c d) ∧
  (∀ (a : BitVec 7) (b : Byte), crcUpdate a b = crcUpdate 0#7 ((a.setWidth 8 <<< 1) ^^^ b)) ∧
  (∀ c : BitVec 7, crcUpdate c (c.setWidth 8 <<< 1) = 0#7 ∧ crcUpdate c ((c.setWidth 8 <<< 1) ||| 1#8) = 0x09#7)

/-- 40_checksum.md R143: the table `T[b] = update(0, b)`, all 256 entries. -/
def Obligations.ChecksumTableOfEveryByte : Prop :=
  (List.range 256).map (fun b => (crcUpdate 0#7 (BitVec.ofNat 8 b)).toNat) =
    [0x00, 0x09, 0x12, 0x1B, 0x24, 0x2D, 0x36, 0x3F, 0x48, 0x41, 0x5A, 0x53, 0x6C, 0x65, 0x7E, 0x77] ++
    [0x19, 0x10, 0x0B, 0x02, 0x3D, 0x34, 0x2F, 0x26, 0x51, 0x58, 0x43, 0x4A, 0x75, 0x7C, 0x67, 0x6E] ++
    [0x32, 0x3B, 0x20, 0x29, 0x16, 0x1F, 0x04, 0x0D, 0x7A, 0x73, 0x68, 0x61, 0x5E, 0x57, 0x4C, 0x45] ++
    [0x2B, 0x22, 0x39, 0x30, 0x0F, 0x06, 0x1D, 0x14, 0x63, 0x6A, 0x71, 0x78, 0x47, 0x4E, 0x55, 0x5C] ++
    [0x64, 0x6D, 0x76, 0x7F, 0x40, 0x49, 0x52, 0x5B, 0x2C, 0x25, 0x3E, 0x37, 0x08, 0x01, 0x1A, 0x13] ++
    [0x7D, 0x74, 0x6F, 0x66, 0x59, 0x50, 0x4B, 0x42, 0x35, 0x3C, 0x27, 0x2E, 0x11, 0x18, 0x03, 0x0A] ++
    [0x56, 0x5F, 0x44, 0x4D, 0x72, 0x7B, 0x60, 0x69, 0x1E, 0x17, 0x0C, 0x05, 0x3A, 0x33, 0x28, 0x21] ++
    [0x4F, 0x46, 0x5D, 0x54, 0x6B, 0x62, 0x79, 0x70, 0x07, 0x0E, 0x15, 0x1C, 0x23, 0x2A, 0x31, 0x38] ++
    [0x41, 0x48, 0x53, 0x5A, 0x65, 0x6C, 0x77, 0x7E, 0x09, 0x00, 0x1B, 0x12, 0x2D, 0x24, 0x3F, 0x36] ++
    [0x58, 0x51, 0x4A, 0x43, 0x7C, 0x75, 0x6E, 0x67, 0x10, 0x19, 0x02, 0x0B, 0x34, 0x3D, 0x26, 0x2F] ++
    [0x73, 0x7A, 0x61, 0x68, 0x57, 0x5E, 0x45, 0x4C, 0x3B, 0x32, 0x29, 0x20, 0x1F, 0x16, 0x0D, 0x04] ++
    [0x6A, 0x63, 0x78, 0x71, 0x4E, 0x47, 0x5C, 0x55, 0x22, 0x2B, 0x30, 0x39, 0x06, 0x0F, 0x14, 0x1D] ++
    [0x25, 0x2C, 0x37, 0x3E, 0x01, 0x08, 0x13, 0x1A, 0x6D, 0x64, 0x7F, 0x76, 0x49, 0x40, 0x5B, 0x52] ++
    [0x3C, 0x35, 0x2E, 0x27, 0x18, 0x11, 0x0A, 0x03, 0x74, 0x7D, 0x66, 0x6F, 0x50, 0x59, 0x42, 0x4B] ++
    [0x17, 0x1E, 0x05, 0x0C, 0x33, 0x3A, 0x21, 0x28, 0x5F, 0x56, 0x4D, 0x44, 0x7B, 0x72, 0x69, 0x60] ++
    [0x0E, 0x07, 0x1C, 0x15, 0x2A, 0x23, 0x38, 0x31, 0x46, 0x4F, 0x54, 0x5D, 0x62, 0x6B, 0x70, 0x79]

/-- 40_checksum.md R140: CRC7UPD completes at once with `OK` = 1 and `VAL` the eight turns of the bit-serial loop, bit 7 first,
changing nothing else; its encoding; and its example. -/
def Obligations.Crc7updResult : Prop :=
  let turn : BitVec 7 → Bool → BitVec 7 := fun acc b =>
    if (acc.getLsbD 6 ^^ b) = true then (acc <<< 1) ^^^ 0x09#7 else acc <<< 1
  let loop : BitVec 7 → Byte → BitVec 7 := fun acc y =>
    turn (turn (turn (turn (turn (turn (turn (turn acc (y.getLsbD 7)) (y.getLsbD 6)) (y.getLsbD 5)) (y.getLsbD 4))
      (y.getLsbD 3)) (y.getLsbD 2)) (y.getLsbD 1)) (y.getLsbD 0)
  (∀ (acc : BitVec 7) (y : Byte) (s : State),
    exec (.crc7upd acc y) s =
      .next { s with ok := true, val := (loop acc y).setWidth 40, busy := false, ph := .idle }) ∧
  (∀ operand : BitVec 40,
    decodeReq (0x1#4 ++ operand) = .crc7upd (operand.extractLsb' 8 7) (operand.extractLsb' 0 8)) ∧
  loop 0x00#7 0x40#8 = 0x64#7 ∧ loop 0x00#7 0x00#8 = 0x00#7

/-! ## Operations without an exchange -/

/-- 30_encoding.md R123: NOP, requested with `BUSY` = 0, completes in the step that accepts it: `CUR_OP <- 0`, `OK <- 1`, `VAL
<- 0` and no exchange. (The operand latch takes the request's operand, R34.) -/
def Obligations.NopCompletesAtOnce : Prop :=
  (∀ s : State, exec .nop s = .next { s with ok := true, val := 0#40, busy := false, ph := .idle }) ∧
  (∀ (s : State) (operand : BitVec 40) (rest : List HostMove),
    s.busy = false → s.ph = .idle → s.host = .writeReq (0x0#4 ++ operand) :: rest →
    step s = .next { s with host := rest, curOp := 0x0#4, opd := operand, ok := true, val := 0#40 }) ∧
  (∃ t, step { State.reset with host := [.writeReq 0#44] } = .next t ∧ t.status = 0x000E#14)

/-- 30_encoding.md R114: the six reserved codes are accepted and complete at once with `OK` = 0, `VAL` = 0 and nothing else
changed but `CUR_OP` (and the operand latch, R34). -/
def Obligations.ReservedCodesCompleteWithFailure : Prop :=
  (∀ (i : Instr) (s : State),
    i = .reservedA ∨ i = .reservedB ∨ i = .reservedC ∨ i = .reservedD ∨ i = .reservedE ∨ i = .reservedF →
    exec i s = .next { s with ok := false, val := 0#40, busy := false, ph := .idle }) ∧
  (∀ (s : State) (op : BitVec 4) (operand : BitVec 40) (rest : List HostMove),
    10 ≤ op.toNat → s.busy = false → s.ph = .idle → s.host = .writeReq (op ++ operand) :: rest →
    step s = .next { s with host := rest, curOp := op, opd := operand, ok := false, val := 0#40 })

/-- 42_response_reader.md R165, R167: MATCH1 and MATCH5 compare `RESP` whole, whatever `RESP_LEN` is, put the result in `OK`, 0
in `VAL`, and change nothing else; their encodings. -/
def Obligations.MatchOperationsCompareResp : Prop :=
  (∀ (e : Byte) (s : State),
    exec (.match1 e) s = .next { s with ok := decide (s.resp[0] = e), val := 0#40, busy := false, ph := .idle }) ∧
  (∀ (e : BitVec 40) (s : State),
    exec (.match5 e) s =
      .next { s with
        ok := decide (s.resp[0] = e.extractLsb' 32 8 ∧ s.resp[1] = e.extractLsb' 24 8 ∧ s.resp[2] = e.extractLsb' 16 8 ∧
                      s.resp[3] = e.extractLsb' 8 8 ∧ s.resp[4] = e.extractLsb' 0 8),
        val := 0#40, busy := false, ph := .idle }) ∧
  (∀ operand : BitVec 40, decodeReq (0x5#4 ++ operand) = .match1 (operand.extractLsb' 0 8)) ∧
  (∀ operand : BitVec 40, decodeReq (0x6#4 ++ operand) = .match5 operand)

/-! ## Exchanges and step tables -/

/-- 00_scope.md R12, 20_memory.md R71 to R73: what the transport primitives do. `rxAnswer` is the environment's scripted byte,
or a free value when no script is left (log 2). -/
def Obligations.TransportPrimitives : Prop :=
  ∀ s : State,
    (∀ b, txByte b s = { s with wire := .tx b :: s.wire, xn := s.xn + 1 }) ∧
    (∀ b r, s.rx = b :: r →
      rxAnswer s = b ∧ rxByte s = { s with wire := .rx b :: s.wire, xn := s.xn + 1, rx := r }) ∧
    (s.rx = [] →
      rxAnswer s = Config.freeRx s.xn ∧
      rxByte s = { s with wire := .rx (Config.freeRx s.xn) :: s.wire, xn := s.xn + 1, rx := [] }) ∧
    csHigh s = { s with csn := true, wire := .csHigh :: s.wire } ∧
    csLow s = { s with csn := false, wire := .csLow :: s.wire }

/-- The seven frame rows CMD0, CMD8, CMD55, CMD41, CMD17, CMD24 and CMDn (41_command_framer.md R151; the reading of a frame as
an instruction is the model's, log 7): in phase `FRAME` the frame's byte `CNT` is sent; after the last one SENDCMD completes and
INIT, WRBLK and RDBLK scan for the response. In any other phase a frame row stops as `offTable` (log 8). -/
def Obligations.CommandFramesTransmitTheirBytes : Prop :=
  ∀ (i : Instr) (s : State), i.isFrame = true →
    (s.ph = .frame → ∀ h : s.cnt.toNat < 5,
      exec i s = .next { txByte (bytesOfWord (encode i))[s.cnt.toNat] s with cnt := s.cnt + 1#10 }) ∧
    (s.ph = .frame → s.cnt = 5#10 → s.curOp = 0x2#4 →
      exec i s = .next { txByte (bytesOfWord (encode i))[5] s with
        cnt := 6#10, ok := true, val := 0#40, busy := false, ph := .idle }) ∧
    (s.ph = .frame → s.cnt = 5#10 → (s.curOp = 0x7#4 ∨ s.curOp = 0x8#4 ∨ s.curOp = 0x9#4) →
      exec i s = .next { txByte (bytesOfWord (encode i))[5] s with cnt := 6#10, ph := .scan }) ∧
    (s.ph ≠ .frame → exec i s = .fault .offTable)

/-- 41_command_framer.md R151: the step table of `SendCommand`, run by `step` on the frame in `FRM`: entry (SENDCMD, WRBLK and
RDBLK enter at acceptance, INIT wherever it turns to phase `FRAME`), then six `TxByte`s and the caller's continuation. -/
def Obligations.SendCommandStepTable : Prop :=
  (∀ (code : BitVec 6) (arg : BitVec 32) (s : State), s.ph = .idle →
    exec (.sendcmd code arg) s = .next { s with frm := buildFrame code arg, cnt := 0#10, ph := .frame } ∧
    exec (.wrblk arg) s = .next { s with frm := buildFrame Config.cmd24 arg, cnt := 0#10, ph := .frame } ∧
    exec (.rdblk arg) s = .next { s with frm := buildFrame Config.cmd17 arg, cnt := 0#10, ph := .frame }) ∧
  (∀ s t : State, s.ph ≠ .frame → exec .init s = .next t → t.ph = .frame →
    t.cnt = 0#10 ∧ ∃ code arg, t.frm = buildFrame code arg) ∧
  (∀ s : State, s.host = [] → s.busy = true → s.ph = .frame →
    s.frm[0].extractLsb' 6 2 = 0b01#2 → s.frm[5].extractLsb' 0 1 = 1#1 →
    (∀ h : s.cnt.toNat < 5, step s = .next { txByte s.frm[s.cnt.toNat] s with cnt := s.cnt + 1#10 }) ∧
    (s.cnt = 5#10 → s.curOp = 0x2#4 →
      step s = .next { txByte s.frm[5] s with cnt := 6#10, ok := true, val := 0#40, busy := false, ph := .idle }) ∧
    (s.cnt = 5#10 → (s.curOp = 0x7#4 ∨ s.curOp = 0x8#4 ∨ s.curOp = 0x9#4) →
      step s = .next { txByte s.frm[5] s with cnt := 6#10, ph := .scan }))

/-- 42_response_reader.md R162: the step table of `ReadShort`, in each operation that reads a short response: the `DISC` step drops
its byte and takes the caller's continuation in the same step: RDRESP1 completes, and WRBLK, RDBLK and INIT compare `RESP[0]` and go
on as the comparison says. -/
def Obligations.ReadShortStepTable : Prop :=
  (∀ s : State, s.ph = .idle → exec .rdresp1 s = .next { s with ph := .scan }) ∧
  (∀ (i : Instr) (s : State),
    (i = .rdresp1 ∨ (∃ a, i = .wrblk a) ∨ (∃ a, i = .rdblk a) ∨
      (i = .init ∧ (s.iseq = .sGoIdle ∨ s.iseq = .sAppCmd ∨ s.iseq = .sAppOpCond))) →
    s.ph = .scan →
    (rxAnswer s = 0xFF#8 → exec i s = .next { rxByte s with tok := 0xFF#8 }) ∧
    (rxAnswer s ≠ 0xFF#8 →
      exec i s = .next { rxByte s with
        tok := rxAnswer s, resp := s.resp.set 0 (rxAnswer s), respLen := .short1, ph := .disc })) ∧
  (∀ (a : BitVec 32) (s : State), s.ph = .disc →
    exec (.wrblk a) s = .next (if s.resp[0] = 0x00#8
      then { rxByte s with cnt := 0#10, ph := .lead }
      else { rxByte s with ok := false, val := 0#40, busy := false, ph := .idle }) ∧
    exec (.rdblk a) s = .next (if s.resp[0] = 0x00#8
      then { rxByte s with ph := .token }
      else { rxByte s with ok := false, val := 0#40, busy := false, ph := .idle })) ∧
  (∀ s : State, s.ph = .disc →
    (s.iseq = .sGoIdle →
      exec .init s = .next (if s.resp[0] = 0x01#8
        then { rxByte s with
          iseq := .sCheckIf, frm := buildFrame Config.cmd8 0x000001AA#32, cnt := 0#10, ph := .frame }
        else { rxByte s with frm := buildFrame Config.cmd0 0x00000000#32, cnt := 0#10, ph := .frame })) ∧
    (s.iseq = .sAppCmd →
      exec .init s = .next (if s.resp[0] = 0x01#8
        then { rxByte s with
          iseq := .sAppOpCond, frm := buildFrame Config.cmd41 0x40000000#32, cnt := 0#10, ph := .frame }
        else { rxByte s with frm := buildFrame Config.cmd55 0x00000000#32, cnt := 0#10, ph := .frame })) ∧
    (s.iseq = .sAppOpCond →
      exec .init s = .next (if s.resp[0] = 0x00#8
        then { rxByte s with iseq := .sReady, ok := true, val := 0#40, busy := false, ph := .idle }
        else { rxByte s with
          iseq := .sAppCmd, frm := buildFrame Config.cmd55 0x00000000#32, cnt := 0#10, ph := .frame }))) ∧
  (∀ s : State, s.ph = .disc →
    exec .rdresp1 s =
      .next { rxByte s with ok := true, val := s.resp[0].setWidth 40, busy := false, ph := .idle })

/-- 42_response_reader.md R164: the step table of `ReadExtended`, in RDRESP5 and in INIT after `CMD8`; the `DISC` step drops its
byte and takes the continuation: RDRESP5 completes, and INIT compares the five bytes in this same step. -/
def Obligations.ReadExtendedStepTable : Prop :=
  (∀ s : State, s.ph = .idle → exec .rdresp5 s = .next { s with ph := .scan }) ∧
  (∀ (i : Instr) (s : State), (i = .rdresp5 ∨ (i = .init ∧ s.iseq = .sCheckIf)) →
    (s.ph = .scan → rxAnswer s = 0xFF#8 → exec i s = .next { rxByte s with tok := 0xFF#8 }) ∧
    (s.ph = .scan → rxAnswer s ≠ 0xFF#8 →
      exec i s = .next { rxByte s with
        tok := rxAnswer s, resp := s.resp.set 0 (rxAnswer s), cnt := 1#10, ph := .cap }) ∧
    (∀ c : Fin 5, 1 ≤ c.val → c.val ≤ 3 → s.ph = .cap → s.cnt.toNat = c.val →
      exec i s = .next { rxByte s with resp := s.resp.set c.val (rxAnswer s), cnt := s.cnt + 1#10 }) ∧
    (s.ph = .cap → s.cnt = 4#10 →
      exec i s = .next { rxByte s with
        resp := s.resp.set 4 (rxAnswer s), cnt := 5#10, respLen := .ext5, ph := .disc })) ∧
  (∀ s : State, s.ph = .disc →
    exec .rdresp5 s =
      .next { rxByte s with
        ok := true, val := s.resp[0] ++ s.resp[1] ++ s.resp[2] ++ s.resp[3] ++ s.resp[4], busy := false, ph := .idle }) ∧
  (∀ s : State, s.ph = .disc → s.iseq = .sCheckIf →
    exec .init s = .next (if s.resp = #v[0x01#8, 0x00#8, 0x00#8, 0x01#8, 0xAA#8]
      then { rxByte s with
        iseq := .sAppCmd, frm := buildFrame Config.cmd55 0x00000000#32, cnt := 0#10, ph := .frame }
      else { rxByte s with frm := buildFrame Config.cmd8 0x000001AA#32, cnt := 0#10, ph := .frame }))

/-- 43_init_sequencer.md R188: the step table of INIT: acceptance, the ten steps of the preamble, the frame, the `SCAN` and
`CAP` steps (those of RDRESP1, and after `CMD8` those of RDRESP5), and the decision after each response, taken in the `DISC`
step. -/
def Obligations.InitStepTable : Prop :=
  ∀ s : State,
    (s.ph = .idle →
      exec .init s = .next { s with
        csn := true, wire := .csHigh :: s.wire, iseq := .sReset, cnt := 0#10, ph := .pre }) ∧
    (s.ph = .pre → s.iseq = .sReset → s.cnt.toNat < 9 →
      exec .init s = .next { txByte 0xFF#8 s with cnt := s.cnt + 1#10 }) ∧
    (s.ph = .pre → s.iseq = .sReset → s.cnt = 9#10 →
      exec .init s = .next { s with
        wire := .csLow :: .tx 0xFF#8 :: s.wire, xn := s.xn + 1, csn := false, iseq := .sGoIdle,
        frm := buildFrame Config.cmd0 0x00000000#32, cnt := 0#10, ph := .frame }) ∧
    (s.ph = .frame → ∀ h : s.cnt.toNat < 5,
      exec .init s = .next { txByte s.frm[s.cnt.toNat] s with cnt := s.cnt + 1#10 }) ∧
    (s.ph = .frame → s.cnt = 5#10 → exec .init s = .next { txByte s.frm[5] s with cnt := 6#10, ph := .scan }) ∧
    (s.ph = .scan → s.iseq = .sGoIdle ∨ s.iseq = .sAppCmd ∨ s.iseq = .sAppOpCond → exec .init s = exec .rdresp1 s) ∧
    (s.ph = .scan ∨ s.ph = .cap → s.iseq = .sCheckIf → exec .init s = exec .rdresp5 s) ∧
    (s.ph = .disc → s.iseq = .sGoIdle →
      exec .init s = .next (if s.resp[0] = 0x01#8
        then { rxByte s with
          iseq := .sCheckIf, frm := buildFrame Config.cmd8 0x000001AA#32, cnt := 0#10, ph := .frame }
        else { rxByte s with frm := buildFrame Config.cmd0 0x00000000#32, cnt := 0#10, ph := .frame })) ∧
    (s.ph = .disc → s.iseq = .sCheckIf →
      exec .init s = .next (if s.resp = #v[0x01#8, 0x00#8, 0x00#8, 0x01#8, 0xAA#8]
        then { rxByte s with
          iseq := .sAppCmd, frm := buildFrame Config.cmd55 0x00000000#32, cnt := 0#10, ph := .frame }
        else { rxByte s with frm := buildFrame Config.cmd8 0x000001AA#32, cnt := 0#10, ph := .frame })) ∧
    (s.ph = .disc → s.iseq = .sAppCmd →
      exec .init s = .next (if s.resp[0] = 0x01#8
        then { rxByte s with
          iseq := .sAppOpCond, frm := buildFrame Config.cmd41 0x40000000#32, cnt := 0#10, ph := .frame }
        else { rxByte s with frm := buildFrame Config.cmd55 0x00000000#32, cnt := 0#10, ph := .frame })) ∧
    (s.ph = .disc → s.iseq = .sAppOpCond →
      exec .init s = .next (if s.resp[0] = 0x00#8
        then { rxByte s with iseq := .sReady, ok := true, val := 0#40, busy := false, ph := .idle }
        else { rxByte s with
          iseq := .sAppCmd, frm := buildFrame Config.cmd55 0x00000000#32, cnt := 0#10, ph := .frame }))

/-- 43_init_sequencer.md R186: the transition relation of `ISEQ`, complete: no other transition exists, INIT completes only from
`S_APP_OP_COND` on the response `0x00`, and after every other response the command of the new state is sent (again). -/
def Obligations.InitHasNoOtherTransition : Prop :=
  ∀ s t : State, exec .init s = .next t →
    (t.iseq =
      if s.ph = .idle then .sReset
      else if s.ph = .pre ∧ s.cnt = 9#10 then .sGoIdle
      else if s.ph = .disc then
        (match s.iseq with
         | .sGoIdle => if s.resp[0] = 0x01#8 then .sCheckIf else .sGoIdle
         | .sCheckIf => if s.resp = #v[0x01#8, 0x00#8, 0x00#8, 0x01#8, 0xAA#8] then .sAppCmd else .sCheckIf
         | .sAppCmd => if s.resp[0] = 0x01#8 then .sAppOpCond else .sAppCmd
         | .sAppOpCond => if s.resp[0] = 0x00#8 then .sReady else .sAppCmd
         | x => x)
      else s.iseq) ∧
    (s.busy = true → (t.busy = false ↔ s.ph = .disc ∧ s.iseq = .sAppOpCond ∧ s.resp[0] = 0x00#8)) ∧
    (t.busy = false → s.busy = true → t.ok = true ∧ t.val = 0#40) ∧
    (s.ph = .disc → t.iseq ≠ .sReady →
      t.ph = .frame ∧ t.cnt = 0#10 ∧
      t.frm =
        (match t.iseq with
         | .sGoIdle => buildFrame Config.cmd0 0x00000000#32
         | .sCheckIf => buildFrame Config.cmd8 0x000001AA#32
         | .sAppCmd => buildFrame Config.cmd55 0x00000000#32
         | .sAppOpCond => buildFrame Config.cmd41 0x40000000#32
         | _ => s.frm))

/-- 44_block_io.md R215: the step table of WRBLK. -/
def Obligations.WrblkStepTable : Prop :=
  ∀ (a : BitVec 32) (s : State),
    (s.ph = .idle →
      exec (.wrblk a) s = .next { s with frm := buildFrame Config.cmd24 a, cnt := 0#10, ph := .frame }) ∧
    (s.ph = .frame → ∀ h : s.cnt.toNat < 5,
      exec (.wrblk a) s = .next { txByte s.frm[s.cnt.toNat] s with cnt := s.cnt + 1#10 }) ∧
    (s.ph = .frame → s.cnt = 5#10 →
      exec (.wrblk a) s = .next { txByte s.frm[5] s with cnt := 6#10, ph := .scan }) ∧
    (s.ph = .scan → rxAnswer s = 0xFF#8 → exec (.wrblk a) s = .next { rxByte s with tok := 0xFF#8 }) ∧
    (s.ph = .scan → rxAnswer s ≠ 0xFF#8 →
      exec (.wrblk a) s = .next { rxByte s with
        tok := rxAnswer s, resp := s.resp.set 0 (rxAnswer s), respLen := .short1, ph := .disc }) ∧
    (s.ph = .disc → s.resp[0] ≠ 0x00#8 →
      exec (.wrblk a) s = .next { rxByte s with ok := false, val := 0#40, busy := false, ph := .idle }) ∧
    (s.ph = .disc → s.resp[0] = 0x00#8 →
      exec (.wrblk a) s = .next { rxByte s with cnt := 0#10, ph := .lead }) ∧
    (s.ph = .lead → s.cnt = 0#10 → exec (.wrblk a) s = .next { txByte 0xFF#8 s with cnt := 1#10 }) ∧
    (s.ph = .lead → s.cnt = 1#10 → exec (.wrblk a) s = .next { txByte 0xFF#8 s with cnt := 2#10 }) ∧
    (s.ph = .lead → s.cnt = 2#10 →
      exec (.wrblk a) s = .next { txByte 0xFE#8 s with cnt := 0#10, ph := .data }) ∧
    (∀ c : Fin 512, c.val ≤ 510 → s.ph = .data → s.cnt.toNat = c.val →
      exec (.wrblk a) s = .next { txByte (s.window .wr c) s with cnt := s.cnt + 1#10 }) ∧
    (s.ph = .data → s.cnt = 511#10 →
      exec (.wrblk a) s = .next { txByte (s.window .wr 511) s with cnt := 512#10, ph := .wresp }) ∧
    (s.ph = .wresp → rxAnswer s = Config.wrAccept →
      exec (.wrblk a) s = .next { rxByte s with
        tok := rxAnswer s, ok := true, val := 0#40, busy := false, ph := .idle }) ∧
    (s.ph = .wresp → rxAnswer s ≠ Config.wrAccept →
      exec (.wrblk a) s = .next { rxByte s with
        tok := rxAnswer s, ok := false, val := 0#40, busy := false, ph := .idle })

/-- 44_block_io.md R216: the step table of RDBLK. In phase `DATA` the byte received is stored at index `CNT` of the buffer `SEL`
names, and every other byte of both receive buffers reads as before. -/
def Obligations.RdblkStepTable : Prop :=
  ∀ (a : BitVec 32) (s : State),
    (s.ph = .idle →
      exec (.rdblk a) s = .next { s with frm := buildFrame Config.cmd17 a, cnt := 0#10, ph := .frame }) ∧
    (s.ph = .frame → ∀ h : s.cnt.toNat < 5,
      exec (.rdblk a) s = .next { txByte s.frm[s.cnt.toNat] s with cnt := s.cnt + 1#10 }) ∧
    (s.ph = .frame → s.cnt = 5#10 →
      exec (.rdblk a) s = .next { txByte s.frm[5] s with cnt := 6#10, ph := .scan }) ∧
    (s.ph = .scan → rxAnswer s = 0xFF#8 → exec (.rdblk a) s = .next { rxByte s with tok := 0xFF#8 }) ∧
    (s.ph = .scan → rxAnswer s ≠ 0xFF#8 →
      exec (.rdblk a) s = .next { rxByte s with
        tok := rxAnswer s, resp := s.resp.set 0 (rxAnswer s), respLen := .short1, ph := .disc }) ∧
    (s.ph = .disc → s.resp[0] ≠ 0x00#8 →
      exec (.rdblk a) s = .next { rxByte s with ok := false, val := 0#40, busy := false, ph := .idle }) ∧
    (s.ph = .disc → s.resp[0] = 0x00#8 → exec (.rdblk a) s = .next { rxByte s with ph := .token }) ∧
    (s.ph = .token → rxAnswer s = 0xFF#8 → exec (.rdblk a) s = .next { rxByte s with tok := 0xFF#8 }) ∧
    (s.ph = .token → rxAnswer s ≠ 0xFF#8 → rxAnswer s ≠ 0xFE#8 →
      exec (.rdblk a) s = .next { rxByte s with
        tok := rxAnswer s, ok := false, val := 0#40, busy := false, ph := .idle }) ∧
    (s.ph = .token → rxAnswer s = 0xFE#8 →
      exec (.rdblk a) s = .next { rxByte s with tok := 0xFE#8, sel := !s.sel, cnt := 0#10, ph := .data }) ∧
    (∀ c : Fin 512, s.ph = .data → s.cnt.toNat = c.val →
      ∃ t, exec (.rdblk a) s = .next t ∧
        t.window (if s.sel then .rxB else .rxA) c = rxAnswer s ∧
        (∀ i, i ≠ c → t.window (if s.sel then .rxB else .rxA) i = s.window (if s.sel then .rxB else .rxA) i) ∧
        (∀ i, t.window (if s.sel then .rxA else .rxB) i = s.window (if s.sel then .rxA else .rxB) i) ∧
        (c.val ≤ 510 →
          t = { rxByte s with rxA := t.rxA, rxB := t.rxB, cnt := s.cnt + 1#10 }) ∧
        (c.val = 511 →
          t = { rxByte s with rxA := t.rxA, rxB := t.rxB, cnt := 0#10, ph := .trail })) ∧
    (s.ph = .trail → s.cnt = 0#10 → exec (.rdblk a) s = .next { rxByte s with cnt := 1#10 }) ∧
    (s.ph = .trail → s.cnt = 1#10 → exec (.rdblk a) s = .next { rxByte s with cnt := 2#10 }) ∧
    (s.ph = .trail → s.cnt = 2#10 →
      exec (.rdblk a) s = .next { rxByte s with cnt := 3#10, ok := true, val := 0#40, busy := false, ph := .idle })

/-! ## Frames: what each instruction leaves alone -/

/-- 20_memory.md R62, 10_state.md R22, R23: of the three buffers an instruction writes at most one byte: RDBLK in phase `DATA`
writes index `CNT` of the buffer `SEL` names; every other byte of `RXBUF`, and all of `WRBUF`, reads as before. -/
def Obligations.BuffersUnchangedButTheStoredByte : Prop :=
  ∀ (i : Instr) (s t : State), exec i s = .next t →
    (∀ k, t.window .wr k = s.window .wr k) ∧
    (∀ k, ¬ ((∃ a, i = .rdblk a) ∧ s.ph = .data ∧ s.sel = false ∧ k.val = s.cnt.toNat) →
      t.window .rxA k = s.window .rxA k) ∧
    (∀ k, ¬ ((∃ a, i = .rdblk a) ∧ s.ph = .data ∧ s.sel = true ∧ k.val = s.cnt.toNat) →
      t.window .rxB k = s.window .rxB k)

/-- 10_state.md R21, 44_block_io.md R211: `SEL` is written only by RDBLK, in the `TOKEN` step that sees `0xFE`, and then
toggled. -/
def Obligations.SelectorTogglesOnlyOnTheToken : Prop :=
  ∀ (i : Instr) (s t : State), exec i s = .next t →
    ((∃ a, i = .rdblk a) ∧ s.ph = .token ∧ rxAnswer s = 0xFE#8 → t.sel = !s.sel) ∧
    (¬ ((∃ a, i = .rdblk a) ∧ s.ph = .token ∧ rxAnswer s = 0xFE#8) → t.sel = s.sel)

/-- 10_state.md R26, R27: `ISEQ` and `CSN` are written only by INIT; and INIT writes `CSN` only on acceptance (1) and at the end
of the preamble (0). -/
def Obligations.OnlyInitWritesSequencerAndChipSelect : Prop :=
  ∀ (i : Instr) (s t : State), exec i s = .next t →
    (i ≠ .init → t.iseq = s.iseq ∧ t.csn = s.csn) ∧
    (i = .init →
      t.csn = if s.ph = .idle then true else if s.ph = .pre ∧ s.cnt = 9#10 then false else s.csn)

/-- 10_state.md R31, R32: `OK` and `VAL` are written only by completion, which also clears `BUSY`. -/
def Obligations.ResultsWrittenOnlyOnCompletion : Prop :=
  ∀ (i : Instr) (s t : State), exec i s = .next t →
    (t.ph = .idle → t.busy = false) ∧
    (t.ph ≠ .idle → t.ok = s.ok ∧ t.val = s.val ∧ t.busy = s.busy)

/-- 10_state.md R24, R25: `RESP` and `RESP_LEN` are written only by the capture steps of RDRESP1, RDRESP5, INIT, WRBLK and
RDBLK, and a step writes at most one byte of `RESP`: `RESP[0]` in `SCAN`, `RESP[CNT]` in `CAP`. -/
def Obligations.ResponseWrittenOnlyByCaptures : Prop :=
  ∀ (i : Instr) (s t : State), exec i s = .next t →
    (¬ ((s.ph = .scan ∨ s.ph = .cap) ∧
        (i = .rdresp1 ∨ i = .rdresp5 ∨ i = .init ∨ (∃ a, i = .wrblk a) ∨ (∃ a, i = .rdblk a))) →
      t.resp = s.resp ∧ t.respLen = s.respLen) ∧
    (s.ph = .scan → ∀ k : Fin 5, k.val ≠ 0 → t.resp[k.val] = s.resp[k.val]) ∧
    (s.ph = .cap → ∀ k : Fin 5, k.val ≠ s.cnt.toNat → t.resp[k.val] = s.resp[k.val])

/-- 10_state.md R28, R33, 41_command_framer.md R151: no instruction writes `CUR_OP`, `OPD` or the host's moves, which stay for
the whole operation, and `FRM` is written only on entry to phase `FRAME`. -/
def Obligations.LatchesConstantForTheOperation : Prop :=
  ∀ (i : Instr) (s t : State), exec i s = .next t →
    t.curOp = s.curOp ∧ t.opd = s.opd ∧ t.host = s.host ∧
    (t.frm ≠ s.frm → t.ph = .frame ∧ t.cnt = 0#10 ∧ s.ph ≠ .frame)

/-- 10_state.md R38, 70_reset_and_hazards.md R280: a step makes at most one exchange: none for NOP, CRC7UPD, MATCH1, MATCH5 and
the reserved codes and none on acceptance, and exactly one for every other instruction in every other phase; what was on the
wire stays, and the script of answers advances by at most one. -/
def Obligations.OneExchangeAStep : Prop :=
  ∀ (i : Instr) (s t : State), exec i s = .next t →
    ∃ new : List Event, t.wire = new ++ s.wire ∧ t.xn = s.xn + exchangesOf new ∧
      exchangesOf new =
        (if i = .nop ∨ (∃ a y, i = .crc7upd a y) ∨ (∃ e, i = .match1 e) ∨ (∃ e, i = .match5 e) ∨ i = .reservedA ∨
            i = .reservedB ∨ i = .reservedC ∨ i = .reservedD ∨ i = .reservedE ∨ i = .reservedF ∨ s.ph = .idle
         then 0 else 1) ∧
      (t.rx = s.rx ∧ (∀ b, .rx b ∉ new) ∨ t.rx = s.rx.tail ∧ new = [.rx (rxAnswer s)])

/-- 20_memory.md R71: a step that sends does not depend on what the environment answers: in the sending phases the outcome is
the same under every script of answers, the script itself apart. -/
def Obligations.SendingStepsIgnoreTheAnswer : Prop :=
  ∀ (i : Instr) (s t : State) (script : List Byte),
    (s.ph = .idle ∨ s.ph = .pre ∨ s.ph = .frame ∨ s.ph = .lead ∨ (s.ph = .data ∧ ∃ a, i = .wrblk a)) →
    exec i s = .next t → t.rx = s.rx ∧ exec i { s with rx := script } = .next { t with rx := script }

/-- 20_memory.md R62: no operation of the core reads `RXBUF`: with other contents of the two receive buffers every instruction
does the same to all other state. -/
def Obligations.ReceiveBuffersAreNeverRead : Prop :=
  ∀ (i : Instr) (s t : State) (a b : Memory), exec i s = .next t →
    ∃ a' b', exec i { s with rxA := a, rxB := b } = .next { t with rxA := a', rxB := b' }

/-! ## Invariants -/

/-- The invariant holds in the reset state. -/
def Obligations.InvHoldsAtReset : Prop := inv State.reset = true

/-- Every step keeps the invariant: buffers canonical, position at a row of the operation's step table, chip-select as the
sequencer state says, `RESP` as `RESP_LEN` says; whatever the host does and whatever the environment answers. -/
def Obligations.EveryStepKeepsInv : Prop :=
  ∀ s t : State, inv s = true → step s = .next t → inv t = true

/-- No state that meets the invariant is stuck: every step answers a next state, so no fault and no refusal is ever reached
(60_exceptions.md R232, R240: nothing but reset or completion ends an operation). -/
def Obligations.SoundStateNeverStops : Prop :=
  ∀ s : State, inv s = true → ∃ t, step s = .next t

/-- 10_state.md R41(b): the position of the card's stream counts the exchanges on the wire and is never rewound; it holds at
reset. -/
def Obligations.StreamPositionCountsExchanges : Prop :=
  streamCounted State.reset = true ∧
  (∀ s t : State, step s = .next t →
    (streamCounted s = true → streamCounted t = true) ∧ (∃ new, t.wire = new ++ s.wire) ∧ s.xn ≤ t.xn ∧ t.xn ≤ s.xn + 1)

/-- 10_state.md R44: whatever `OPD`, `FRM`, `TOK` and `CNT` hold while the core is idle never influences a result: from two idle
states that differ in them alone, under the same host moves and the same answers, the runs agree for ever in everything else. -/
def Obligations.DeadTemporariesNeverMatter : Prop :=
  ∀ (n : Nat) (s : State) (opd : BitVec 40) (frm : Vector Byte 6) (tok : Byte) (cnt : BitVec 10),
    inv s = true → s.busy = false →
    ∃ t t', Host.Core.run Sys2Proof.core n s = .next t ∧
      Host.Core.run Sys2Proof.core n { s with opd := opd, frm := frm, tok := tok, cnt := cnt } = .next t' ∧
      t' = { t with opd := t'.opd, frm := t'.frm, tok := t'.tok, cnt := t'.cnt }

/-! ## Whole operations -/

/-- 42_response_reader.md R161: RDRESP1 over `k` idle bytes and then a byte `v` that is not idle completes after exactly `k + 2`
exchanges, all reads, with `VAL` = `v`; `RESP[1..4]`, and every register not named, keep their values. While only idle bytes
come it does not complete. -/
def Obligations.Rdresp1Run : Prop :=
  (∀ (s : State) (operand : BitVec 40) (k : Nat) (v d : Byte) (later : List Byte),
    s.busy = false → s.ph = .idle → s.host = [.writeReq (0x3#4 ++ operand)] →
    s.rx = List.replicate k 0xFF#8 ++ v :: d :: later → v ≠ 0xFF#8 →
    Host.Core.run Sys2Proof.core (k + 3) s = .next { s with
      host := [], curOp := 0x3#4, opd := operand, rx := later, tok := v, resp := s.resp.set 0 v, respLen := .short1,
      ok := true, val := v.setWidth 40, xn := s.xn + (k + 2),
      wire := .rx d :: .rx v :: (List.replicate k (.rx 0xFF#8) ++ s.wire) }) ∧
  (∀ (s : State) (operand : BitVec 40) (k : Nat) (later : List Byte),
    s.busy = false → s.ph = .idle → s.host = [.writeReq (0x3#4 ++ operand)] → s.rx = List.replicate k 0xFF#8 ++ later →
    ∃ t, Host.Core.run Sys2Proof.core (k + 1) s = .next t ∧ t.busy = true ∧ t.ph = .scan ∧ t.ok = s.ok ∧ t.val = s.val ∧
      t.resp = s.resp ∧ t.respLen = s.respLen ∧ t.xn = s.xn + k ∧ t.rx = later)

/-- 42_response_reader.md R163: RDRESP5 over `k` idle bytes and then five bytes of which only the first need not be idle
completes after exactly `k + 6` exchanges, all reads, with the five bytes in `RESP` and `VAL`, first received most significant.
While only idle bytes come it does not complete. -/
def Obligations.Rdresp5Run : Prop :=
  (∀ (s : State) (operand : BitVec 40) (k : Nat) (v0 v1 v2 v3 v4 d : Byte) (later : List Byte),
    s.busy = false → s.ph = .idle → s.host = [.writeReq (0x4#4 ++ operand)] →
    s.rx = List.replicate k 0xFF#8 ++ v0 :: v1 :: v2 :: v3 :: v4 :: d :: later → v0 ≠ 0xFF#8 →
    Host.Core.run Sys2Proof.core (k + 7) s = .next { s with
      host := [], curOp := 0x4#4, opd := operand, rx := later, tok := v0, resp := #v[v0, v1, v2, v3, v4],
      respLen := .ext5, cnt := 5#10, ok := true, val := v0 ++ v1 ++ v2 ++ v3 ++ v4, xn := s.xn + (k + 6),
      wire := .rx d :: .rx v4 :: .rx v3 :: .rx v2 :: .rx v1 :: .rx v0 ::
        (List.replicate k (.rx 0xFF#8) ++ s.wire) }) ∧
  (∀ (s : State) (operand : BitVec 40) (k : Nat) (later : List Byte),
    s.busy = false → s.ph = .idle → s.host = [.writeReq (0x4#4 ++ operand)] → s.rx = List.replicate k 0xFF#8 ++ later →
    ∃ t, Host.Core.run Sys2Proof.core (k + 1) s = .next t ∧ t.busy = true ∧ t.ph = .scan ∧ t.ok = s.ok ∧ t.val = s.val ∧
      t.resp = s.resp ∧ t.respLen = s.respLen ∧ t.xn = s.xn + k ∧ t.rx = later)

/-- 41_command_framer.md R150: SENDCMD sends the six bytes of the frame of its code and argument, in order, and completes with
`OK` = 1, `VAL` = 0; every register not named keeps its value. -/
def Obligations.SendcmdRun : Prop :=
  ∀ (s : State) (operand : BitVec 40),
    s.busy = false → s.ph = .idle → s.host = [.writeReq (0x2#4 ++ operand)] →
    let code : BitVec 6 := operand.extractLsb' 32 6
    let arg : BitVec 32 := operand.extractLsb' 0 32
    let crc := crc7 [0x40#8 ||| code.setWidth 8, arg.extractLsb' 24 8, arg.extractLsb' 16 8, arg.extractLsb' 8 8,
      arg.extractLsb' 0 8]
    let f : Vector Byte 6 := #v[0x40#8 ||| code.setWidth 8, arg.extractLsb' 24 8, arg.extractLsb' 16 8,
      arg.extractLsb' 8 8, arg.extractLsb' 0 8, (crc.setWidth 8 <<< 1) ||| 1#8]
    Host.Core.run Sys2Proof.core 7 s = .next { s with
      host := [], curOp := 0x2#4, opd := operand, frm := f, cnt := 6#10, ok := true, val := 0#40, xn := s.xn + 6,
      wire := .tx f[5] :: .tx f[4] :: .tx f[3] :: .tx f[2] :: .tx f[1] :: .tx f[0] :: s.wire }

/-- 43_init_sequencer.md R180, R189 (g = c = a = o = 1): INIT with a card that gives every awaited answer, after any numbers of
idle bytes, completes after `46 + K` exchanges; what it sends is the preamble and the four frames in order; `SEL` and the
buffers are untouched. -/
def Obligations.InitShortestRun : Prop :=
  ∀ (s : State) (operand : BitVec 40) (k1 k2 k3 k4 : Nat) (d1 d2 d3 d4 : Byte) (later : List Byte),
    s.busy = false → s.ph = .idle → s.host = [.writeReq (0x7#4 ++ operand)] →
    s.rx = List.replicate k1 0xFF#8 ++ 0x01#8 :: d1 ::
      (List.replicate k2 0xFF#8 ++ 0x01#8 :: 0x00#8 :: 0x00#8 :: 0x01#8 :: 0xAA#8 :: d2 ::
        (List.replicate k3 0xFF#8 ++ 0x01#8 :: d3 :: (List.replicate k4 0xFF#8 ++ 0x00#8 :: d4 :: later))) →
    ∃ t, Host.Core.run Sys2Proof.core (47 + k1 + k2 + k3 + k4) s = .next t ∧
      t.iseq = .sReady ∧ t.csn = false ∧ t.ok = true ∧ t.val = 0#40 ∧ t.busy = false ∧ t.ph = .idle ∧
      t.resp = #v[0x00#8, 0x00#8, 0x00#8, 0x01#8, 0xAA#8] ∧ t.respLen = .short1 ∧ t.curOp = 0x7#4 ∧
      t.sel = s.sel ∧ t.wrbuf = s.wrbuf ∧ t.rxA = s.rxA ∧ t.rxB = s.rxB ∧
      t.xn = s.xn + (46 + k1 + k2 + k3 + k4) ∧ t.rx = later ∧
      (sentBytes t.wire).reverse = (sentBytes s.wire).reverse ++ List.replicate 10 0xFF#8 ++
        [0x40#8, 0x00#8, 0x00#8, 0x00#8, 0x00#8, 0x95#8] ++ [0x48#8, 0x00#8, 0x00#8, 0x01#8, 0xAA#8, 0x87#8] ++
        [0x77#8, 0x00#8, 0x00#8, 0x00#8, 0x00#8, 0x65#8] ++ [0x69#8, 0x40#8, 0x00#8, 0x00#8, 0x00#8, 0x77#8]

/-- 44_block_io.md R200, R204, R206, R207: WRBLK whose command is accepted makes `524 + k` exchanges, sends the frame, two idle
bytes, the token and `WRBUF[0]` to `WRBUF[511]` in order, reads one byte, and ends with `OK` = 1 if and only if that byte equals
`WR_ACCEPT`; the buffers, `SEL`, `ISEQ` and `CSN` are untouched. (A `WRBUF` byte nothing has written is a free value, log 3.) -/
def Obligations.WrblkRun : Prop :=
  ∀ (s : State) (operand : BitVec 40) (k : Nat) (d b : Byte) (later : List Byte),
    s.busy = false → s.ph = .idle → s.host = [.writeReq (0x8#4 ++ operand)] →
    s.rx = List.replicate k 0xFF#8 ++ 0x00#8 :: d :: b :: later →
    ∃ t, Host.Core.run Sys2Proof.core (525 + k) s = .next t ∧
      t.ok = decide (b = Config.wrAccept) ∧ t.val = 0#40 ∧ t.busy = false ∧ t.ph = .idle ∧ t.curOp = 0x8#4 ∧
      t.resp = s.resp.set 0 0x00#8 ∧ t.respLen = .short1 ∧
      t.sel = s.sel ∧ t.wrbuf = s.wrbuf ∧ t.rxA = s.rxA ∧ t.rxB = s.rxB ∧ t.iseq = s.iseq ∧ t.csn = s.csn ∧
      t.xn = s.xn + (524 + k) ∧ t.rx = later ∧
      (sentBytes t.wire).reverse = (sentBytes s.wire).reverse ++
        (buildFrame Config.cmd24 (operand.extractLsb' 0 32)).toList ++ [0xFF#8, 0xFF#8, 0xFE#8] ++
        (List.finRange 512).map (fun i => s.window .wr i)

/-- 44_block_io.md R201, 60_exceptions.md R230 (`W1`), R231: a short response other than `0x00` after `CMD24` fails WRBLK after
`8 + k` exchanges; nothing is sent after the frame, and `RESP[0]` holds the offending response. -/
def Obligations.WrblkRejectedRun : Prop :=
  ∀ (s : State) (operand : BitVec 40) (k : Nat) (v d : Byte) (later : List Byte),
    s.busy = false → s.ph = .idle → s.host = [.writeReq (0x8#4 ++ operand)] →
    s.rx = List.replicate k 0xFF#8 ++ v :: d :: later → v ≠ 0xFF#8 → v ≠ 0x00#8 →
    ∃ t, Host.Core.run Sys2Proof.core (9 + k) s = .next t ∧
      t.ok = false ∧ t.val = 0#40 ∧ t.busy = false ∧ t.ph = .idle ∧ t.resp = s.resp.set 0 v ∧ t.respLen = .short1 ∧
      t.sel = s.sel ∧ t.wrbuf = s.wrbuf ∧ t.rxA = s.rxA ∧ t.rxB = s.rxB ∧ t.iseq = s.iseq ∧ t.csn = s.csn ∧
      t.xn = s.xn + (8 + k) ∧ t.rx = later ∧
      (sentBytes t.wire).reverse = (sentBytes s.wire).reverse ++
        (buildFrame Config.cmd24 (operand.extractLsb' 0 32)).toList

/-- 44_block_io.md R210 to R213, R219: RDBLK whose command is accepted and whose token arrives makes `524 + k + m` exchanges,
toggles `SEL`, fills the buffer the new `SEL` names with the 512 bytes that follow the token, in order and unexamined, leaves
the other receive buffer and `WRBUF` intact, and succeeds. -/
def Obligations.RdblkRun : Prop :=
  ∀ (s : State) (operand : BitVec 40) (k m : Nat) (d c0 c1 x : Byte) (payload later : List Byte),
    s.busy = false → s.ph = .idle → s.host = [.writeReq (0x9#4 ++ operand)] → payload.length = 512 →
    s.rx = List.replicate k 0xFF#8 ++ 0x00#8 :: d :: (List.replicate m 0xFF#8 ++ 0xFE#8 ::
      (payload ++ c0 :: c1 :: x :: later)) →
    ∃ t, Host.Core.run Sys2Proof.core (525 + k + m) s = .next t ∧
      t.ok = true ∧ t.val = 0#40 ∧ t.busy = false ∧ t.ph = .idle ∧ t.curOp = 0x9#4 ∧
      t.sel = (!s.sel) ∧
      (∀ i : Fin 512, some (t.window (if t.sel then .rxB else .rxA) i) = payload[i.val]?) ∧
      (∀ i : Fin 512, t.window (if t.sel then .rxA else .rxB) i = s.window (if t.sel then .rxA else .rxB) i) ∧
      t.wrbuf = s.wrbuf ∧ t.iseq = s.iseq ∧ t.csn = s.csn ∧ t.resp = s.resp.set 0 0x00#8 ∧ t.respLen = .short1 ∧
      t.xn = s.xn + (524 + k + m) ∧ t.rx = later ∧
      (sentBytes t.wire).reverse = (sentBytes s.wire).reverse ++
        (buildFrame Config.cmd17 (operand.extractLsb' 0 32)).toList

/-- 44_block_io.md R214, R219, 60_exceptions.md R230 (`R1`, `R2`), R231: the two failures of RDBLK, after `8 + k` and `9 + k +
m` exchanges; neither toggles `SEL` nor writes a buffer. -/
def Obligations.RdblkFailedRuns : Prop :=
  ∀ (s : State) (operand : BitVec 40) (k : Nat) (d : Byte) (later : List Byte),
    s.busy = false → s.ph = .idle → s.host = [.writeReq (0x9#4 ++ operand)] →
    (∀ v : Byte, v ≠ 0xFF#8 → v ≠ 0x00#8 → s.rx = List.replicate k 0xFF#8 ++ v :: d :: later →
      ∃ t, Host.Core.run Sys2Proof.core (9 + k) s = .next t ∧
        t.ok = false ∧ t.val = 0#40 ∧ t.busy = false ∧ t.ph = .idle ∧ t.resp = s.resp.set 0 v ∧ t.respLen = .short1 ∧
        t.sel = s.sel ∧ t.wrbuf = s.wrbuf ∧ t.rxA = s.rxA ∧ t.rxB = s.rxB ∧ t.iseq = s.iseq ∧ t.csn = s.csn ∧
        t.xn = s.xn + (8 + k) ∧ t.rx = later) ∧
    (∀ (m : Nat) (v : Byte), v ≠ 0xFF#8 → v ≠ 0xFE#8 →
      s.rx = List.replicate k 0xFF#8 ++ 0x00#8 :: d :: (List.replicate m 0xFF#8 ++ v :: later) →
      ∃ t, Host.Core.run Sys2Proof.core (10 + k + m) s = .next t ∧
        t.ok = false ∧ t.val = 0#40 ∧ t.busy = false ∧ t.ph = .idle ∧ t.resp = s.resp.set 0 0x00#8 ∧
        t.respLen = .short1 ∧ t.tok = v ∧
        t.sel = s.sel ∧ t.wrbuf = s.wrbuf ∧ t.rxA = s.rxA ∧ t.rxB = s.rxB ∧ t.iseq = s.iseq ∧ t.csn = s.csn ∧
        t.xn = s.xn + (9 + k + m) ∧ t.rx = later)

/-! ## Hangs -/

/-- 60_exceptions.md R240, R241: the idle-skip hang: for as long as the environment answers `0xFF`, an operation in `SCAN` or
`TOKEN` reads for ever, with `BUSY` = 1, its result not written and nothing else changed. -/
def Obligations.IdleSkipHangs : Prop :=
  ∀ (n : Nat) (s : State) (later : List Byte),
    inv s = true → s.busy = true → s.host = [] → s.ph = .scan ∨ s.ph = .token →
    s.rx = List.replicate n 0xFF#8 ++ later →
    Host.Core.run Sys2Proof.core n s = .next { s with
      tok := if n = 0 then s.tok else 0xFF#8, rx := later, xn := s.xn + n,
      wire := List.replicate n (.rx 0xFF#8) ++ s.wire }

/-- 43_init_sequencer.md R184, 60_exceptions.md R240: the retry hang: a card that keeps answering `CMD55` with anything but `0x01`
keeps INIT in `S_APP_CMD` for ever, the frame sent again after every answer, and `CMD41` never sent. The frame's bytes rest on the
code `CMD55` = 55, which is PRESUMED (log 6). -/
def Obligations.InitRetryHangs : Prop :=
  ∀ (answers : List (Byte × Byte)) (s : State) (later : List Byte),
    inv s = true → s.busy = true → s.host = [] → s.curOp = 0x7#4 → s.iseq = .sAppCmd → s.ph = .frame → s.cnt = 0#10 →
    (∀ p ∈ answers, p.1 ≠ 0xFF#8 ∧ p.1 ≠ 0x01#8) →
    s.rx = answers.flatMap (fun p => [p.1, p.2]) ++ later →
    ∃ t, Host.Core.run Sys2Proof.core (8 * answers.length) s = .next t ∧
      t.busy = true ∧ t.iseq = .sAppCmd ∧ t.ph = .frame ∧ t.cnt = 0#10 ∧ t.ok = s.ok ∧ t.val = s.val ∧
      t.xn = s.xn + 8 * answers.length ∧ t.rx = later ∧
      (sentBytes t.wire).reverse = (sentBytes s.wire).reverse ++
        (List.replicate answers.length [0x77#8, 0x00#8, 0x00#8, 0x00#8, 0x00#8, 0x65#8]).flatten

/-- 60_exceptions.md R240 ("Every other phase is counted and always ends"): from a sound state in any phase but `SCAN` and
`TOKEN` the core, left alone, leaves the phase within 512 steps, whatever the environment answers. -/
def Obligations.CountedPhasesEnd : Prop :=
  ∀ s : State, inv s = true → s.busy = true → s.host = [] → s.ph ≠ .scan → s.ph ≠ .token →
    ∃ n t, 1 ≤ n ∧ n ≤ 512 ∧ Host.Core.run Sys2Proof.core n s = .next t ∧ t.ph ≠ s.ph
end

