-- ==== Sys2Proof/Laws/PerInstr.lean ====
section
/-! SUPPORT. Facts about every instruction as syntax, one lemma per constructor. Family EncodeShape: a request's code has its
top four bits 0, and a frame's code has the start bits `0b01` and the end bit 1 (30_encoding.md R101, R109). -/

namespace Sys2Proof.Laws.EncodeShape

/-- The shape of an instruction's table word. -/
def Statement (i : Instr) : Prop :=
  if i.isFrame then (encode i).extractLsb' 46 2 = 0b01#2 ∧ (encode i).extractLsb' 0 1 = 1#1
  else (encode i).extractLsb' 44 4 = 0#4

theorem tableOfReq_top (w : ReqWord) : (tableOfReq w).extractLsb' 44 4 = 0#4 := by
  unfold tableOfReq
  ext i hi
  simp only [BitVec.getElem_extractLsb', BitVec.getLsbD_append]
  simp [show ¬ (44 + i < 44) by omega]

theorem frameOf_ends (code : BitVec 6) (arg : BitVec 32) (crc : BitVec 7) :
    (frameOf code arg crc).extractLsb' 46 2 = 0b01#2 ∧ (frameOf code arg crc).extractLsb' 0 1 = 1#1 := by
  unfold frameOf
  constructor
  · ext i hi
    simp only [BitVec.getElem_extractLsb', BitVec.getLsbD_append]
    obtain rfl | rfl : i = 0 ∨ i = 1 := by omega
    all_goals simp
  · ext i hi
    simp only [BitVec.getElem_extractLsb', BitVec.getLsbD_append]
    simp [show i = 0 by omega]

theorem nop : Statement .nop := tableOfReq_top _
theorem crc7upd (acc : BitVec 7) (byte : Byte) : Statement (.crc7upd acc byte) := tableOfReq_top _
theorem sendcmd (code : BitVec 6) (arg : BitVec 32) : Statement (.sendcmd code arg) := tableOfReq_top _
theorem rdresp1 : Statement .rdresp1 := tableOfReq_top _
theorem rdresp5 : Statement .rdresp5 := tableOfReq_top _
theorem match1 (exp : Byte) : Statement (.match1 exp) := tableOfReq_top _
theorem match5 (exp : BitVec 40) : Statement (.match5 exp) := tableOfReq_top _
theorem init : Statement .init := tableOfReq_top _
theorem wrblk (addr : BitVec 32) : Statement (.wrblk addr) := tableOfReq_top _
theorem rdblk (addr : BitVec 32) : Statement (.rdblk addr) := tableOfReq_top _
theorem reservedA : Statement .reservedA := tableOfReq_top _
theorem reservedB : Statement .reservedB := tableOfReq_top _
theorem reservedC : Statement .reservedC := tableOfReq_top _
theorem reservedD : Statement .reservedD := tableOfReq_top _
theorem reservedE : Statement .reservedE := tableOfReq_top _
theorem reservedF : Statement .reservedF := tableOfReq_top _
theorem cmd0 : Statement .cmd0 := ⟨rfl, rfl⟩
theorem cmd8 : Statement .cmd8 := ⟨rfl, rfl⟩
theorem cmd55 : Statement .cmd55 := ⟨rfl, rfl⟩
theorem cmd41 : Statement .cmd41 := ⟨rfl, rfl⟩
theorem cmd17 (addr : BitVec 32) (crc : BitVec 7) : Statement (.cmd17 addr crc) := frameOf_ends _ _ _
theorem cmd24 (addr : BitVec 32) (crc : BitVec 7) : Statement (.cmd24 addr crc) := frameOf_ends _ _ _
theorem cmdn (code : BitVec 6) (arg : BitVec 32) (crc : BitVec 7) : Statement (.cmdn code arg crc) := frameOf_ends _ _ _

end Sys2Proof.Laws.EncodeShape
end

