-- ==== Sys2Proof/Laws/Decode.lean ====
section
/-! SUPPORT. The fields of request words, frame words and byte vectors, and what the decoder does on each kind of word. -/

namespace Sys2Proof

/-! ## Request words (30_encoding.md R109, R111) -/

@[simp] theorem tableOfReq_request (w : ReqWord) : (tableOfReq w).extractLsb' 0 44 = w := by
  unfold tableOfReq
  simp (disch := omega) only [BitVec.extractLsb'_append_eq_of_add_le, BitVec.extractLsb'_eq_self]

@[simp] theorem reqOp_reqOf (op : BitVec 4) (operand : BitVec 40) : reqOp (reqOf op operand) = op := by
  unfold reqOp reqOf
  simp (disch := omega) only [BitVec.extractLsb'_append_eq_of_le, Nat.reduceSub, BitVec.extractLsb'_eq_self]

@[simp] theorem reqOperand_reqOf (op : BitVec 4) (operand : BitVec 40) : reqOperand (reqOf op operand) = operand := by
  unfold reqOperand reqOf
  simp (disch := omega) only [BitVec.extractLsb'_append_eq_of_add_le, BitVec.extractLsb'_eq_self]

@[simp] theorem reqOf_reqOp_reqOperand (w : ReqWord) : reqOf (reqOp w) (reqOperand w) = w := by
  unfold reqOp reqOperand reqOf
  rw [BitVec.extractLsb'_append_extractLsb'_eq_extractLsb' (by rfl)]
  exact BitVec.extractLsb'_eq_self

/-- A request word is always decoded: every one of the sixteen codes has a row (30_encoding.md R122). -/
theorem decode_tableOfReq (w : ReqWord) : decode (tableOfReq w) = .ok (decodeReq w) := by
  simp [decode, Laws.EncodeShape.tableOfReq_top w]

theorem decode_request (op : BitVec 4) (operand : BitVec 40) :
    decode (tableOfReq (reqOf op operand)) = .ok (decodeOp op operand) := by
  simp [decode_tableOfReq, decodeReq]

/-! ## Frame words (30_encoding.md R101) -/

@[simp] theorem frameOf_code (code : BitVec 6) (arg : BitVec 32) (crc : BitVec 7) :
    (frameOf code arg crc).extractLsb' 40 6 = code := by
  unfold frameOf
  simp (disch := omega) only [BitVec.extractLsb'_append_eq_of_add_le, BitVec.extractLsb'_append_eq_of_le, Nat.reduceSub,
    BitVec.extractLsb'_eq_self]

@[simp] theorem frameOf_arg (code : BitVec 6) (arg : BitVec 32) (crc : BitVec 7) :
    (frameOf code arg crc).extractLsb' 8 32 = arg := by
  unfold frameOf
  simp (disch := omega) only [BitVec.extractLsb'_append_eq_of_add_le, BitVec.extractLsb'_append_eq_of_le, Nat.reduceSub,
    BitVec.extractLsb'_eq_self]

@[simp] theorem frameOf_crc (code : BitVec 6) (arg : BitVec 32) (crc : BitVec 7) :
    (frameOf code arg crc).extractLsb' 1 7 = crc := by
  unfold frameOf
  simp (disch := omega) only [BitVec.extractLsb'_append_eq_of_add_le, BitVec.extractLsb'_append_eq_of_le, Nat.reduceSub,
    BitVec.extractLsb'_eq_self]

/-- A word with a frame's start and end bits is the frame of its three fields. -/
theorem frameOf_fields (w : FrameWord) (hs : w.extractLsb' 46 2 = 0b01#2) (he : w.extractLsb' 0 1 = 1#1) :
    frameOf (w.extractLsb' 40 6) (w.extractLsb' 8 32) (w.extractLsb' 1 7) = w := by
  unfold frameOf
  rw [← hs, ← he]
  repeat rw [BitVec.extractLsb'_append_extractLsb'_eq_extractLsb' (by rfl)]
  exact BitVec.extractLsb'_eq_self

/-- A word with a frame's start bits is no request. -/
theorem top_ne_zero_of_start (w : FrameWord) (hs : w.extractLsb' 46 2 = 0b01#2) : w.extractLsb' 44 4 ≠ 0#4 := by
  intro h0
  have h1 : (w.extractLsb' 46 2).getLsbD 0 = true := by rw [hs]; rfl
  have h2 : (w.extractLsb' 44 4).getLsbD 2 = false := by rw [h0]; rfl
  simp only [BitVec.getLsbD_extractLsb'] at h1 h2
  simp_all

/-- A word with a frame's start and end bits is decoded as a frame. -/
theorem decode_frame (w : FrameWord) (hs : w.extractLsb' 46 2 = 0b01#2) (he : w.extractLsb' 0 1 = 1#1) :
    decode w = .ok (decodeFrame w) := by
  simp [decode, top_ne_zero_of_start w hs, hs, he]

namespace Machine

/-! ## Bytes and words (20_memory.md R67) -/

@[simp] theorem bytesOfWord_wordOfBytes (f : Vector Byte 6) : bytesOfWord (wordOfBytes f) = f := by
  refine Vector.ext fun i hi => ?_
  obtain rfl | rfl | rfl | rfl | rfl | rfl : i = 0 ∨ i = 1 ∨ i = 2 ∨ i = 3 ∨ i = 4 ∨ i = 5 := by omega
  all_goals
    simp (disch := omega) only [bytesOfWord, wordOfBytes, Vector.getElem_mk, List.getElem_toArray, List.getElem_cons_zero,
      List.getElem_cons_succ, BitVec.extractLsb'_append_eq_of_add_le, BitVec.extractLsb'_append_eq_of_le, Nat.reduceSub,
      BitVec.extractLsb'_eq_self]

@[simp] theorem wordOfBytes_bytesOfWord (w : FrameWord) : wordOfBytes (bytesOfWord w) = w := by
  simp only [bytesOfWord, wordOfBytes, Vector.getElem_mk, List.getElem_toArray, List.getElem_cons_zero,
    List.getElem_cons_succ]
  repeat rw [BitVec.extractLsb'_append_extractLsb'_eq_extractLsb' (by rfl)]
  exact BitVec.extractLsb'_eq_self

theorem packResp_unpackExp (e : BitVec 40) : packResp (unpackExp e) = e := by
  simp only [unpackExp, packResp, Vector.getElem_mk, List.getElem_toArray, List.getElem_cons_zero, List.getElem_cons_succ]
  repeat rw [BitVec.extractLsb'_append_extractLsb'_eq_extractLsb' (by rfl)]
  exact BitVec.extractLsb'_eq_self

theorem commandByte_append (code : BitVec 6) : commandByte code = 0b01#2 ++ code := by
  unfold commandByte
  revert code
  decide

theorem checksumByte_append (crc : BitVec 7) : checksumByte crc = crc ++ 1#1 := by
  unfold checksumByte
  revert crc
  decide

theorem frameOf_lastByte (code : BitVec 6) (arg : BitVec 32) (crc : BitVec 7) :
    (frameOf code arg crc).extractLsb' 0 8 = crc ++ 1#1 := by
  unfold frameOf
  refine BitVec.eq_of_getLsbD_eq fun i hi => ?_
  simp only [BitVec.getLsbD_extractLsb', BitVec.getLsbD_append, Nat.zero_add, hi, decide_true, Bool.true_and]
  by_cases h : i < 1
  · simp [h]
  · simp [h, show i - 1 < 7 by omega]

theorem bytesOfWord_frameOf_crc (code : BitVec 6) (arg : BitVec 32) (crc : BitVec 7) :
    bytesOfWord (frameOf code arg crc) =
      #v[commandByte code, arg.extractLsb' 24 8, arg.extractLsb' 16 8, arg.extractLsb' 8 8, arg.extractLsb' 0 8,
         checksumByte crc] := by
  unfold bytesOfWord
  rw [checksumByte_append, commandByte_append, ← frameOf_lastByte code arg crc]
  unfold frameOf
  simp (disch := omega) only [BitVec.extractLsb'_append_eq_of_add_le, BitVec.extractLsb'_append_eq_of_le, Nat.reduceSub,
    BitVec.extractLsb'_eq_self]

/-- The bytes of a frame word are those `SendCommand` builds (30_encoding.md R101 to R103). -/
theorem bytesOfWord_frameOf (code : BitVec 6) (arg : BitVec 32) :
    bytesOfWord (frameOf code arg (frameCrc code arg)) = buildFrame code arg :=
  bytesOfWord_frameOf_crc code arg _

/-- The six bytes `SendCommand` builds are the frame word of its code, argument and checksum. -/
theorem wordOfBytes_buildFrame (code : BitVec 6) (arg : BitVec 32) :
    wordOfBytes (buildFrame code arg) = frameOf code arg (frameCrc code arg) := by
  rw [← bytesOfWord_frameOf, wordOfBytes_bytesOfWord]

end Machine

end Sys2Proof
end

