-- ==== Sys2Proof/Laws/State.lean ====
section
/-! SUPPORT. One lemma per field per update of State, each true by rfl: what a named operation leaves in every field. -/

namespace Sys2Proof.Machine

/-! ## txByte -/

@[simp] theorem txByte_sel (b : Byte) (s : State) : (txByte b s).sel = s.sel := rfl
@[simp] theorem txByte_rxA (b : Byte) (s : State) : (txByte b s).rxA = s.rxA := rfl
@[simp] theorem txByte_rxB (b : Byte) (s : State) : (txByte b s).rxB = s.rxB := rfl
@[simp] theorem txByte_wrbuf (b : Byte) (s : State) : (txByte b s).wrbuf = s.wrbuf := rfl
@[simp] theorem txByte_resp (b : Byte) (s : State) : (txByte b s).resp = s.resp := rfl
@[simp] theorem txByte_respLen (b : Byte) (s : State) : (txByte b s).respLen = s.respLen := rfl
@[simp] theorem txByte_iseq (b : Byte) (s : State) : (txByte b s).iseq = s.iseq := rfl
@[simp] theorem txByte_csn (b : Byte) (s : State) : (txByte b s).csn = s.csn := rfl
@[simp] theorem txByte_opd (b : Byte) (s : State) : (txByte b s).opd = s.opd := rfl
@[simp] theorem txByte_frm (b : Byte) (s : State) : (txByte b s).frm = s.frm := rfl
@[simp] theorem txByte_tok (b : Byte) (s : State) : (txByte b s).tok = s.tok := rfl
@[simp] theorem txByte_cnt (b : Byte) (s : State) : (txByte b s).cnt = s.cnt := rfl
@[simp] theorem txByte_busy (b : Byte) (s : State) : (txByte b s).busy = s.busy := rfl
@[simp] theorem txByte_ok (b : Byte) (s : State) : (txByte b s).ok = s.ok := rfl
@[simp] theorem txByte_val (b : Byte) (s : State) : (txByte b s).val = s.val := rfl
@[simp] theorem txByte_curOp (b : Byte) (s : State) : (txByte b s).curOp = s.curOp := rfl
@[simp] theorem txByte_ph (b : Byte) (s : State) : (txByte b s).ph = s.ph := rfl
@[simp] theorem txByte_xn (b : Byte) (s : State) : (txByte b s).xn = s.xn + 1 := rfl
@[simp] theorem txByte_wire (b : Byte) (s : State) : (txByte b s).wire = .tx b :: s.wire := rfl
@[simp] theorem txByte_rx (b : Byte) (s : State) : (txByte b s).rx = s.rx := rfl
@[simp] theorem txByte_host (b : Byte) (s : State) : (txByte b s).host = s.host := rfl

/-! ## rxByte -/

@[simp] theorem rxByte_sel (s : State) : (rxByte s).sel = s.sel := rfl
@[simp] theorem rxByte_rxA (s : State) : (rxByte s).rxA = s.rxA := rfl
@[simp] theorem rxByte_rxB (s : State) : (rxByte s).rxB = s.rxB := rfl
@[simp] theorem rxByte_wrbuf (s : State) : (rxByte s).wrbuf = s.wrbuf := rfl
@[simp] theorem rxByte_resp (s : State) : (rxByte s).resp = s.resp := rfl
@[simp] theorem rxByte_respLen (s : State) : (rxByte s).respLen = s.respLen := rfl
@[simp] theorem rxByte_iseq (s : State) : (rxByte s).iseq = s.iseq := rfl
@[simp] theorem rxByte_csn (s : State) : (rxByte s).csn = s.csn := rfl
@[simp] theorem rxByte_opd (s : State) : (rxByte s).opd = s.opd := rfl
@[simp] theorem rxByte_frm (s : State) : (rxByte s).frm = s.frm := rfl
@[simp] theorem rxByte_tok (s : State) : (rxByte s).tok = s.tok := rfl
@[simp] theorem rxByte_cnt (s : State) : (rxByte s).cnt = s.cnt := rfl
@[simp] theorem rxByte_busy (s : State) : (rxByte s).busy = s.busy := rfl
@[simp] theorem rxByte_ok (s : State) : (rxByte s).ok = s.ok := rfl
@[simp] theorem rxByte_val (s : State) : (rxByte s).val = s.val := rfl
@[simp] theorem rxByte_curOp (s : State) : (rxByte s).curOp = s.curOp := rfl
@[simp] theorem rxByte_ph (s : State) : (rxByte s).ph = s.ph := rfl
@[simp] theorem rxByte_xn (s : State) : (rxByte s).xn = s.xn + 1 := rfl
@[simp] theorem rxByte_wire (s : State) : (rxByte s).wire = .rx (rxAnswer s) :: s.wire := rfl
@[simp] theorem rxByte_rx (s : State) : (rxByte s).rx = s.rx.tail := rfl
@[simp] theorem rxByte_host (s : State) : (rxByte s).host = s.host := rfl

/-! ## readTok -/

@[simp] theorem readTok_sel (s : State) : (readTok s).sel = s.sel := rfl
@[simp] theorem readTok_rxA (s : State) : (readTok s).rxA = s.rxA := rfl
@[simp] theorem readTok_rxB (s : State) : (readTok s).rxB = s.rxB := rfl
@[simp] theorem readTok_wrbuf (s : State) : (readTok s).wrbuf = s.wrbuf := rfl
@[simp] theorem readTok_resp (s : State) : (readTok s).resp = s.resp := rfl
@[simp] theorem readTok_respLen (s : State) : (readTok s).respLen = s.respLen := rfl
@[simp] theorem readTok_iseq (s : State) : (readTok s).iseq = s.iseq := rfl
@[simp] theorem readTok_csn (s : State) : (readTok s).csn = s.csn := rfl
@[simp] theorem readTok_opd (s : State) : (readTok s).opd = s.opd := rfl
@[simp] theorem readTok_frm (s : State) : (readTok s).frm = s.frm := rfl
@[simp] theorem readTok_tok (s : State) : (readTok s).tok = rxAnswer s := rfl
@[simp] theorem readTok_cnt (s : State) : (readTok s).cnt = s.cnt := rfl
@[simp] theorem readTok_busy (s : State) : (readTok s).busy = s.busy := rfl
@[simp] theorem readTok_ok (s : State) : (readTok s).ok = s.ok := rfl
@[simp] theorem readTok_val (s : State) : (readTok s).val = s.val := rfl
@[simp] theorem readTok_curOp (s : State) : (readTok s).curOp = s.curOp := rfl
@[simp] theorem readTok_ph (s : State) : (readTok s).ph = s.ph := rfl
@[simp] theorem readTok_xn (s : State) : (readTok s).xn = s.xn + 1 := rfl
@[simp] theorem readTok_wire (s : State) : (readTok s).wire = .rx (rxAnswer s) :: s.wire := rfl
@[simp] theorem readTok_rx (s : State) : (readTok s).rx = s.rx.tail := rfl
@[simp] theorem readTok_host (s : State) : (readTok s).host = s.host := rfl

/-! ## csHigh -/

@[simp] theorem csHigh_sel (s : State) : (csHigh s).sel = s.sel := rfl
@[simp] theorem csHigh_rxA (s : State) : (csHigh s).rxA = s.rxA := rfl
@[simp] theorem csHigh_rxB (s : State) : (csHigh s).rxB = s.rxB := rfl
@[simp] theorem csHigh_wrbuf (s : State) : (csHigh s).wrbuf = s.wrbuf := rfl
@[simp] theorem csHigh_resp (s : State) : (csHigh s).resp = s.resp := rfl
@[simp] theorem csHigh_respLen (s : State) : (csHigh s).respLen = s.respLen := rfl
@[simp] theorem csHigh_iseq (s : State) : (csHigh s).iseq = s.iseq := rfl
@[simp] theorem csHigh_csn (s : State) : (csHigh s).csn = true := rfl
@[simp] theorem csHigh_opd (s : State) : (csHigh s).opd = s.opd := rfl
@[simp] theorem csHigh_frm (s : State) : (csHigh s).frm = s.frm := rfl
@[simp] theorem csHigh_tok (s : State) : (csHigh s).tok = s.tok := rfl
@[simp] theorem csHigh_cnt (s : State) : (csHigh s).cnt = s.cnt := rfl
@[simp] theorem csHigh_busy (s : State) : (csHigh s).busy = s.busy := rfl
@[simp] theorem csHigh_ok (s : State) : (csHigh s).ok = s.ok := rfl
@[simp] theorem csHigh_val (s : State) : (csHigh s).val = s.val := rfl
@[simp] theorem csHigh_curOp (s : State) : (csHigh s).curOp = s.curOp := rfl
@[simp] theorem csHigh_ph (s : State) : (csHigh s).ph = s.ph := rfl
@[simp] theorem csHigh_xn (s : State) : (csHigh s).xn = s.xn := rfl
@[simp] theorem csHigh_wire (s : State) : (csHigh s).wire = .csHigh :: s.wire := rfl
@[simp] theorem csHigh_rx (s : State) : (csHigh s).rx = s.rx := rfl
@[simp] theorem csHigh_host (s : State) : (csHigh s).host = s.host := rfl

/-! ## csLow -/

@[simp] theorem csLow_sel (s : State) : (csLow s).sel = s.sel := rfl
@[simp] theorem csLow_rxA (s : State) : (csLow s).rxA = s.rxA := rfl
@[simp] theorem csLow_rxB (s : State) : (csLow s).rxB = s.rxB := rfl
@[simp] theorem csLow_wrbuf (s : State) : (csLow s).wrbuf = s.wrbuf := rfl
@[simp] theorem csLow_resp (s : State) : (csLow s).resp = s.resp := rfl
@[simp] theorem csLow_respLen (s : State) : (csLow s).respLen = s.respLen := rfl
@[simp] theorem csLow_iseq (s : State) : (csLow s).iseq = s.iseq := rfl
@[simp] theorem csLow_csn (s : State) : (csLow s).csn = false := rfl
@[simp] theorem csLow_opd (s : State) : (csLow s).opd = s.opd := rfl
@[simp] theorem csLow_frm (s : State) : (csLow s).frm = s.frm := rfl
@[simp] theorem csLow_tok (s : State) : (csLow s).tok = s.tok := rfl
@[simp] theorem csLow_cnt (s : State) : (csLow s).cnt = s.cnt := rfl
@[simp] theorem csLow_busy (s : State) : (csLow s).busy = s.busy := rfl
@[simp] theorem csLow_ok (s : State) : (csLow s).ok = s.ok := rfl
@[simp] theorem csLow_val (s : State) : (csLow s).val = s.val := rfl
@[simp] theorem csLow_curOp (s : State) : (csLow s).curOp = s.curOp := rfl
@[simp] theorem csLow_ph (s : State) : (csLow s).ph = s.ph := rfl
@[simp] theorem csLow_xn (s : State) : (csLow s).xn = s.xn := rfl
@[simp] theorem csLow_wire (s : State) : (csLow s).wire = .csLow :: s.wire := rfl
@[simp] theorem csLow_rx (s : State) : (csLow s).rx = s.rx := rfl
@[simp] theorem csLow_host (s : State) : (csLow s).host = s.host := rfl

/-! ## storeResp -/

@[simp] theorem storeResp_sel (c : Nat) (v : Byte) (s : State) : (storeResp c v s).sel = s.sel := rfl
@[simp] theorem storeResp_rxA (c : Nat) (v : Byte) (s : State) : (storeResp c v s).rxA = s.rxA := rfl
@[simp] theorem storeResp_rxB (c : Nat) (v : Byte) (s : State) : (storeResp c v s).rxB = s.rxB := rfl
@[simp] theorem storeResp_wrbuf (c : Nat) (v : Byte) (s : State) : (storeResp c v s).wrbuf = s.wrbuf := rfl
@[simp] theorem storeResp_resp (c : Nat) (v : Byte) (s : State) : (storeResp c v s).resp = s.resp.setIfInBounds c v := rfl
@[simp] theorem storeResp_respLen (c : Nat) (v : Byte) (s : State) : (storeResp c v s).respLen = s.respLen := rfl
@[simp] theorem storeResp_iseq (c : Nat) (v : Byte) (s : State) : (storeResp c v s).iseq = s.iseq := rfl
@[simp] theorem storeResp_csn (c : Nat) (v : Byte) (s : State) : (storeResp c v s).csn = s.csn := rfl
@[simp] theorem storeResp_opd (c : Nat) (v : Byte) (s : State) : (storeResp c v s).opd = s.opd := rfl
@[simp] theorem storeResp_frm (c : Nat) (v : Byte) (s : State) : (storeResp c v s).frm = s.frm := rfl
@[simp] theorem storeResp_tok (c : Nat) (v : Byte) (s : State) : (storeResp c v s).tok = s.tok := rfl
@[simp] theorem storeResp_cnt (c : Nat) (v : Byte) (s : State) : (storeResp c v s).cnt = s.cnt := rfl
@[simp] theorem storeResp_busy (c : Nat) (v : Byte) (s : State) : (storeResp c v s).busy = s.busy := rfl
@[simp] theorem storeResp_ok (c : Nat) (v : Byte) (s : State) : (storeResp c v s).ok = s.ok := rfl
@[simp] theorem storeResp_val (c : Nat) (v : Byte) (s : State) : (storeResp c v s).val = s.val := rfl
@[simp] theorem storeResp_curOp (c : Nat) (v : Byte) (s : State) : (storeResp c v s).curOp = s.curOp := rfl
@[simp] theorem storeResp_ph (c : Nat) (v : Byte) (s : State) : (storeResp c v s).ph = s.ph := rfl
@[simp] theorem storeResp_xn (c : Nat) (v : Byte) (s : State) : (storeResp c v s).xn = s.xn := rfl
@[simp] theorem storeResp_wire (c : Nat) (v : Byte) (s : State) : (storeResp c v s).wire = s.wire := rfl
@[simp] theorem storeResp_rx (c : Nat) (v : Byte) (s : State) : (storeResp c v s).rx = s.rx := rfl
@[simp] theorem storeResp_host (c : Nat) (v : Byte) (s : State) : (storeResp c v s).host = s.host := rfl

/-! ## accept -/

@[simp] theorem accept_sel (op : BitVec 4) (operand : BitVec 40) (s : State) : (accept op operand s).sel = s.sel := rfl
@[simp] theorem accept_rxA (op : BitVec 4) (operand : BitVec 40) (s : State) : (accept op operand s).rxA = s.rxA := rfl
@[simp] theorem accept_rxB (op : BitVec 4) (operand : BitVec 40) (s : State) : (accept op operand s).rxB = s.rxB := rfl
@[simp] theorem accept_wrbuf (op : BitVec 4) (operand : BitVec 40) (s : State) : (accept op operand s).wrbuf = s.wrbuf := rfl
@[simp] theorem accept_resp (op : BitVec 4) (operand : BitVec 40) (s : State) : (accept op operand s).resp = s.resp := rfl
@[simp] theorem accept_respLen (op : BitVec 4) (operand : BitVec 40) (s : State) : (accept op operand s).respLen = s.respLen := rfl
@[simp] theorem accept_iseq (op : BitVec 4) (operand : BitVec 40) (s : State) : (accept op operand s).iseq = s.iseq := rfl
@[simp] theorem accept_csn (op : BitVec 4) (operand : BitVec 40) (s : State) : (accept op operand s).csn = s.csn := rfl
@[simp] theorem accept_opd (op : BitVec 4) (operand : BitVec 40) (s : State) : (accept op operand s).opd = operand := rfl
@[simp] theorem accept_frm (op : BitVec 4) (operand : BitVec 40) (s : State) : (accept op operand s).frm = s.frm := rfl
@[simp] theorem accept_tok (op : BitVec 4) (operand : BitVec 40) (s : State) : (accept op operand s).tok = s.tok := rfl
@[simp] theorem accept_cnt (op : BitVec 4) (operand : BitVec 40) (s : State) : (accept op operand s).cnt = s.cnt := rfl
@[simp] theorem accept_busy (op : BitVec 4) (operand : BitVec 40) (s : State) : (accept op operand s).busy = true := rfl
@[simp] theorem accept_ok (op : BitVec 4) (operand : BitVec 40) (s : State) : (accept op operand s).ok = s.ok := rfl
@[simp] theorem accept_val (op : BitVec 4) (operand : BitVec 40) (s : State) : (accept op operand s).val = s.val := rfl
@[simp] theorem accept_curOp (op : BitVec 4) (operand : BitVec 40) (s : State) : (accept op operand s).curOp = op := rfl
@[simp] theorem accept_ph (op : BitVec 4) (operand : BitVec 40) (s : State) : (accept op operand s).ph = s.ph := rfl
@[simp] theorem accept_xn (op : BitVec 4) (operand : BitVec 40) (s : State) : (accept op operand s).xn = s.xn := rfl
@[simp] theorem accept_wire (op : BitVec 4) (operand : BitVec 40) (s : State) : (accept op operand s).wire = s.wire := rfl
@[simp] theorem accept_rx (op : BitVec 4) (operand : BitVec 40) (s : State) : (accept op operand s).rx = s.rx := rfl
@[simp] theorem accept_host (op : BitVec 4) (operand : BitVec 40) (s : State) : (accept op operand s).host = s.host := rfl

/-! ## hostWriteWrbuf -/

@[simp] theorem hostWriteWrbuf_sel (i : Fin 512) (v : Byte) (s : State) : (hostWriteWrbuf i v s).sel = s.sel := rfl
@[simp] theorem hostWriteWrbuf_rxA (i : Fin 512) (v : Byte) (s : State) : (hostWriteWrbuf i v s).rxA = s.rxA := rfl
@[simp] theorem hostWriteWrbuf_rxB (i : Fin 512) (v : Byte) (s : State) : (hostWriteWrbuf i v s).rxB = s.rxB := rfl
@[simp] theorem hostWriteWrbuf_wrbuf (i : Fin 512) (v : Byte) (s : State) : (hostWriteWrbuf i v s).wrbuf = Memory.write s.wrbuf i.val v := rfl
@[simp] theorem hostWriteWrbuf_resp (i : Fin 512) (v : Byte) (s : State) : (hostWriteWrbuf i v s).resp = s.resp := rfl
@[simp] theorem hostWriteWrbuf_respLen (i : Fin 512) (v : Byte) (s : State) : (hostWriteWrbuf i v s).respLen = s.respLen := rfl
@[simp] theorem hostWriteWrbuf_iseq (i : Fin 512) (v : Byte) (s : State) : (hostWriteWrbuf i v s).iseq = s.iseq := rfl
@[simp] theorem hostWriteWrbuf_csn (i : Fin 512) (v : Byte) (s : State) : (hostWriteWrbuf i v s).csn = s.csn := rfl
@[simp] theorem hostWriteWrbuf_opd (i : Fin 512) (v : Byte) (s : State) : (hostWriteWrbuf i v s).opd = s.opd := rfl
@[simp] theorem hostWriteWrbuf_frm (i : Fin 512) (v : Byte) (s : State) : (hostWriteWrbuf i v s).frm = s.frm := rfl
@[simp] theorem hostWriteWrbuf_tok (i : Fin 512) (v : Byte) (s : State) : (hostWriteWrbuf i v s).tok = s.tok := rfl
@[simp] theorem hostWriteWrbuf_cnt (i : Fin 512) (v : Byte) (s : State) : (hostWriteWrbuf i v s).cnt = s.cnt := rfl
@[simp] theorem hostWriteWrbuf_busy (i : Fin 512) (v : Byte) (s : State) : (hostWriteWrbuf i v s).busy = s.busy := rfl
@[simp] theorem hostWriteWrbuf_ok (i : Fin 512) (v : Byte) (s : State) : (hostWriteWrbuf i v s).ok = s.ok := rfl
@[simp] theorem hostWriteWrbuf_val (i : Fin 512) (v : Byte) (s : State) : (hostWriteWrbuf i v s).val = s.val := rfl
@[simp] theorem hostWriteWrbuf_curOp (i : Fin 512) (v : Byte) (s : State) : (hostWriteWrbuf i v s).curOp = s.curOp := rfl
@[simp] theorem hostWriteWrbuf_ph (i : Fin 512) (v : Byte) (s : State) : (hostWriteWrbuf i v s).ph = s.ph := rfl
@[simp] theorem hostWriteWrbuf_xn (i : Fin 512) (v : Byte) (s : State) : (hostWriteWrbuf i v s).xn = s.xn := rfl
@[simp] theorem hostWriteWrbuf_wire (i : Fin 512) (v : Byte) (s : State) : (hostWriteWrbuf i v s).wire = s.wire := rfl
@[simp] theorem hostWriteWrbuf_rx (i : Fin 512) (v : Byte) (s : State) : (hostWriteWrbuf i v s).rx = s.rx := rfl
@[simp] theorem hostWriteWrbuf_host (i : Fin 512) (v : Byte) (s : State) : (hostWriteWrbuf i v s).host = s.host := rfl

/-! ## hardReset -/

@[simp] theorem hardReset_sel (s : State) : (hardReset s).sel = State.reset.sel := rfl
@[simp] theorem hardReset_rxA (s : State) : (hardReset s).rxA = s.rxA := rfl
@[simp] theorem hardReset_rxB (s : State) : (hardReset s).rxB = s.rxB := rfl
@[simp] theorem hardReset_wrbuf (s : State) : (hardReset s).wrbuf = s.wrbuf := rfl
@[simp] theorem hardReset_resp (s : State) : (hardReset s).resp = State.reset.resp := rfl
@[simp] theorem hardReset_respLen (s : State) : (hardReset s).respLen = State.reset.respLen := rfl
@[simp] theorem hardReset_iseq (s : State) : (hardReset s).iseq = State.reset.iseq := rfl
@[simp] theorem hardReset_csn (s : State) : (hardReset s).csn = State.reset.csn := rfl
@[simp] theorem hardReset_opd (s : State) : (hardReset s).opd = State.reset.opd := rfl
@[simp] theorem hardReset_frm (s : State) : (hardReset s).frm = State.reset.frm := rfl
@[simp] theorem hardReset_tok (s : State) : (hardReset s).tok = State.reset.tok := rfl
@[simp] theorem hardReset_cnt (s : State) : (hardReset s).cnt = State.reset.cnt := rfl
@[simp] theorem hardReset_busy (s : State) : (hardReset s).busy = State.reset.busy := rfl
@[simp] theorem hardReset_ok (s : State) : (hardReset s).ok = State.reset.ok := rfl
@[simp] theorem hardReset_val (s : State) : (hardReset s).val = State.reset.val := rfl
@[simp] theorem hardReset_curOp (s : State) : (hardReset s).curOp = State.reset.curOp := rfl
@[simp] theorem hardReset_ph (s : State) : (hardReset s).ph = State.reset.ph := rfl
@[simp] theorem hardReset_xn (s : State) : (hardReset s).xn = s.xn := rfl
@[simp] theorem hardReset_wire (s : State) : (hardReset s).wire = s.wire := rfl
@[simp] theorem hardReset_rx (s : State) : (hardReset s).rx = s.rx := rfl
@[simp] theorem hardReset_host (s : State) : (hardReset s).host = s.host := rfl

/-! ## storeRx -/

@[simp] theorem storeRx_sel (i : Nat) (v : Byte) (s : State) : (storeRx i v s).sel = s.sel := rfl
@[simp] theorem storeRx_rxA (i : Nat) (v : Byte) (s : State) : (storeRx i v s).rxA = if s.sel then s.rxA else Memory.write s.rxA i v := rfl
@[simp] theorem storeRx_rxB (i : Nat) (v : Byte) (s : State) : (storeRx i v s).rxB = if s.sel then Memory.write s.rxB i v else s.rxB := rfl
@[simp] theorem storeRx_wrbuf (i : Nat) (v : Byte) (s : State) : (storeRx i v s).wrbuf = s.wrbuf := rfl
@[simp] theorem storeRx_resp (i : Nat) (v : Byte) (s : State) : (storeRx i v s).resp = s.resp := rfl
@[simp] theorem storeRx_respLen (i : Nat) (v : Byte) (s : State) : (storeRx i v s).respLen = s.respLen := rfl
@[simp] theorem storeRx_iseq (i : Nat) (v : Byte) (s : State) : (storeRx i v s).iseq = s.iseq := rfl
@[simp] theorem storeRx_csn (i : Nat) (v : Byte) (s : State) : (storeRx i v s).csn = s.csn := rfl
@[simp] theorem storeRx_opd (i : Nat) (v : Byte) (s : State) : (storeRx i v s).opd = s.opd := rfl
@[simp] theorem storeRx_frm (i : Nat) (v : Byte) (s : State) : (storeRx i v s).frm = s.frm := rfl
@[simp] theorem storeRx_tok (i : Nat) (v : Byte) (s : State) : (storeRx i v s).tok = s.tok := rfl
@[simp] theorem storeRx_cnt (i : Nat) (v : Byte) (s : State) : (storeRx i v s).cnt = s.cnt := rfl
@[simp] theorem storeRx_busy (i : Nat) (v : Byte) (s : State) : (storeRx i v s).busy = s.busy := rfl
@[simp] theorem storeRx_ok (i : Nat) (v : Byte) (s : State) : (storeRx i v s).ok = s.ok := rfl
@[simp] theorem storeRx_val (i : Nat) (v : Byte) (s : State) : (storeRx i v s).val = s.val := rfl
@[simp] theorem storeRx_curOp (i : Nat) (v : Byte) (s : State) : (storeRx i v s).curOp = s.curOp := rfl
@[simp] theorem storeRx_ph (i : Nat) (v : Byte) (s : State) : (storeRx i v s).ph = s.ph := rfl
@[simp] theorem storeRx_xn (i : Nat) (v : Byte) (s : State) : (storeRx i v s).xn = s.xn := rfl
@[simp] theorem storeRx_wire (i : Nat) (v : Byte) (s : State) : (storeRx i v s).wire = s.wire := rfl
@[simp] theorem storeRx_rx (i : Nat) (v : Byte) (s : State) : (storeRx i v s).rx = s.rx := rfl
@[simp] theorem storeRx_host (i : Nat) (v : Byte) (s : State) : (storeRx i v s).host = s.host := rfl

end Sys2Proof.Machine
end

