-- ==== Sys2Proof/Laws/Ops.lean ====
section
/-! SUPPORT. What each shared operation can do, said once: an equation for an operation with one outcome, and an inversion
("if it answers next t, then one of these cases holds") for one with several. -/

namespace Sys2Proof.Machine

@[simp] theorem complete_eq (ok : Bool) (v : BitVec 40) (s : State) :
    complete ok v s = .next { s with ok := ok, val := v, busy := false, ph := .idle } := rfl

@[simp] theorem returnFail_eq (s : State) :
    returnFail s = .next { s with ok := false, val := 0#40, busy := false, ph := .idle } := rfl

@[simp] theorem returnSuccess_eq (s : State) :
    returnSuccess s = .next { s with ok := true, val := 0#40, busy := false, ph := .idle } := rfl

@[simp] theorem goto_eq (p : Phase) (s : State) : goto p s = .next { s with ph := p } := rfl

@[simp] theorem gotoAt_eq (p : Phase) (c : BitVec 10) (s : State) : gotoAt p c s = .next { s with ph := p, cnt := c } := rfl

@[simp] theorem countUp_eq (s : State) : countUp s = .next { s with cnt := s.cnt + 1#10 } := rfl

@[simp] theorem enterFrame_eq (code : BitVec 6) (arg : BitVec 32) (s : State) :
    enterFrame code arg s = .next { s with frm := buildFrame code arg, cnt := 0#10, ph := .frame } := rfl

@[simp] theorem offTable_eq : offTable = .fault .offTable := rfl

/-! ## The environment's answer -/

theorem rxAnswer_cons (s : State) (b : Byte) (r : List Byte) (h : s.rx = b :: r) : rxAnswer s = b := by
  simp [rxAnswer, h]

theorem rxAnswer_nil (s : State) (h : s.rx = []) : rxAnswer s = Config.freeRx s.xn := by
  simp [rxAnswer, h]

/-! ## Phase FRAME -/

theorem sendFrameByte_lt (f : Vector Byte 6) (k : State → Answer) (s : State) (h : s.cnt.toNat < 5) :
    sendFrameByte f k s = .next { txByte f[s.cnt.toNat] s with cnt := s.cnt + 1#10 } := by
  simp [sendFrameByte, h]

theorem sendFrameByte_last (f : Vector Byte 6) (k : State → Answer) (s : State) (h : s.cnt = 5#10) :
    sendFrameByte f k s = k { txByte f[5] s with cnt := 6#10 } := by
  simp [sendFrameByte, h]

theorem sendFrameByte_cases {f : Vector Byte 6} {k : State → Answer} {s t : State} (h : sendFrameByte f k s = .next t) :
    (∃ hc : s.cnt.toNat < 5, t = { txByte f[s.cnt.toNat] s with cnt := s.cnt + 1#10 }) ∨
    (s.cnt = 5#10 ∧ k { txByte f[5] s with cnt := 6#10 } = .next t) := by
  unfold sendFrameByte at h
  split at h
  · rename_i hc; simp only [countUp_eq, Host.Outcome.next.injEq] at h; exact .inl ⟨hc, h.symm⟩
  · split at h
    · rename_i hc; exact .inr ⟨hc, h⟩
    · simp at h

theorem afterFrame_cases {op : BitVec 4} {s t : State} (h : afterFrame op s = .next t) :
    (op = 0x2#4 ∧ t = { s with ok := true, val := 0#40, busy := false, ph := .idle }) ∨
    ((op = 0x7#4 ∨ op = 0x8#4 ∨ op = 0x9#4) ∧ t = { s with ph := .scan }) := by
  unfold afterFrame at h
  split at h
  · rename_i hc; simp only [complete_eq, Host.Outcome.next.injEq] at h; exact .inl ⟨hc, h.symm⟩
  · split at h
    · rename_i hc; simp only [goto_eq, Host.Outcome.next.injEq] at h; exact .inr ⟨hc, h.symm⟩
    · simp at h

theorem transmit_cases {i : Instr} {s t : State} (h : transmit i s = .next t) :
    s.ph = .frame ∧ sendFrameByte (bytesOfWord (encode i)) (afterFrame s.curOp) s = .next t := by
  unfold transmit at h
  split at h
  · rename_i hc; exact ⟨hc, h⟩
  · simp at h

/-! ## Phases SCAN, CAP, DISC -/

theorem scanShort_cases {s t : State} (h : scanShort s = .next t) :
    (isIdleByte (rxAnswer s) = true ∧ t = { readTok s with ph := .scan }) ∨
    (isIdleByte (rxAnswer s) = false ∧
      t = { readTok s with resp := s.resp.setIfInBounds 0 (rxAnswer s), respLen := .short1, ph := .disc }) := by
  unfold scanShort at h
  split at h
  · rename_i hc; simp only [goto_eq, Host.Outcome.next.injEq] at h; exact .inl ⟨hc, h.symm⟩
  · rename_i hc; simp only [goto_eq, Host.Outcome.next.injEq] at h
    exact .inr ⟨by simpa using hc, h.symm⟩

theorem scanExtended_cases {s t : State} (h : scanExtended s = .next t) :
    (isIdleByte (rxAnswer s) = true ∧ t = { readTok s with ph := .scan }) ∨
    (isIdleByte (rxAnswer s) = false ∧
      t = { readTok s with resp := s.resp.setIfInBounds 0 (rxAnswer s), ph := .cap, cnt := 1#10 }) := by
  unfold scanExtended at h
  split at h
  · rename_i hc; simp only [goto_eq, Host.Outcome.next.injEq] at h; exact .inl ⟨hc, h.symm⟩
  · rename_i hc; simp only [gotoAt_eq, Host.Outcome.next.injEq] at h
    exact .inr ⟨by simpa using hc, h.symm⟩

theorem captureByte_cases {s t : State} (h : captureByte s = .next t) :
    (1 ≤ s.cnt.toNat ∧ s.cnt.toNat ≤ 3 ∧
      t = { rxByte s with resp := s.resp.setIfInBounds s.cnt.toNat (rxAnswer s), cnt := s.cnt + 1#10 }) ∨
    (s.cnt = 4#10 ∧
      t = { rxByte s with resp := s.resp.setIfInBounds 4 (rxAnswer s), respLen := .ext5, ph := .disc, cnt := 5#10 }) := by
  unfold captureByte at h
  simp only at h
  split at h
  · rename_i hc; simp only [countUp_eq, Host.Outcome.next.injEq] at h; exact .inl ⟨hc.1, hc.2, h.symm⟩
  · split at h
    · rename_i hc; simp only [gotoAt_eq, Host.Outcome.next.injEq] at h
      exact .inr ⟨hc, by rw [← h, hc]; rfl⟩
    · simp at h

/-! ## The Initialization Sequencer -/

theorem preambleByte_cases {s t : State} (h : preambleByte s = .next t) :
    (s.cnt.toNat < 9 ∧ t = { txByte Config.idle s with cnt := s.cnt + 1#10 }) ∨
    (s.cnt = 9#10 ∧
      t = { csLow (txByte Config.idle s) with
            iseq := .sGoIdle, frm := buildFrame Config.cmd0 0#32, cnt := 0#10, ph := .frame }) := by
  unfold preambleByte at h
  simp only at h
  split at h
  · rename_i hc; simp only [countUp_eq, Host.Outcome.next.injEq] at h; exact .inl ⟨hc, h.symm⟩
  · split at h
    · rename_i hc; simp only [enterFrame_eq, Host.Outcome.next.injEq] at h; exact .inr ⟨hc, h.symm⟩
    · simp at h

theorem initScan_cases {s t : State} (h : initScan s = .next t) :
    ((s.iseq = .sGoIdle ∨ s.iseq = .sAppCmd ∨ s.iseq = .sAppOpCond) ∧ scanShort s = .next t) ∨
    (s.iseq = .sCheckIf ∧ scanExtended s = .next t) := by
  unfold initScan at h
  split at h <;> simp_all

/-- Every transition out of a response of INIT (43_init_sequencer.md R186). -/
theorem initDecide_cases {s t : State} (h : initDecide s = .next t) :
    (s.iseq = .sGoIdle ∧ matchesShort Config.r1IdleState s = true ∧
      t = { s with iseq := .sCheckIf, frm := buildFrame Config.cmd8 Config.cmd8Arg, cnt := 0#10, ph := .frame }) ∨
    (s.iseq = .sGoIdle ∧ matchesShort Config.r1IdleState s = false ∧
      t = { s with frm := buildFrame Config.cmd0 0#32, cnt := 0#10, ph := .frame }) ∨
    (s.iseq = .sCheckIf ∧ matchesExtended Config.r7Check s = true ∧
      t = { s with iseq := .sAppCmd, frm := buildFrame Config.cmd55 0#32, cnt := 0#10, ph := .frame }) ∨
    (s.iseq = .sCheckIf ∧ matchesExtended Config.r7Check s = false ∧
      t = { s with frm := buildFrame Config.cmd8 Config.cmd8Arg, cnt := 0#10, ph := .frame }) ∨
    (s.iseq = .sAppCmd ∧ matchesShort Config.r1IdleState s = true ∧
      t = { s with iseq := .sAppOpCond, frm := buildFrame Config.cmd41 Config.cmd41Arg, cnt := 0#10, ph := .frame }) ∨
    (s.iseq = .sAppCmd ∧ matchesShort Config.r1IdleState s = false ∧
      t = { s with frm := buildFrame Config.cmd55 0#32, cnt := 0#10, ph := .frame }) ∨
    (s.iseq = .sAppOpCond ∧ matchesShort Config.r1Ready s = true ∧
      t = { s with iseq := .sReady, ok := true, val := 0#40, busy := false, ph := .idle }) ∨
    (s.iseq = .sAppOpCond ∧ matchesShort Config.r1Ready s = false ∧
      t = { s with iseq := .sAppCmd, frm := buildFrame Config.cmd55 0#32, cnt := 0#10, ph := .frame }) := by
  unfold initDecide at h
  split at h
  case h_1 hi => split at h <;> simp_all
  case h_2 hi => split at h <;> simp_all
  case h_3 hi => split at h <;> simp_all
  case h_4 hi => split at h <;> simp_all
  all_goals simp at h

/-! ## Block I/O -/

theorem leadByte_cases {s t : State} (h : leadByte s = .next t) :
    (s.cnt.toNat < 2 ∧ t = { txByte Config.idle s with cnt := s.cnt + 1#10 }) ∨
    (s.cnt = 2#10 ∧ t = { txByte Config.token s with ph := .data, cnt := 0#10 }) := by
  unfold leadByte at h
  split at h
  · rename_i hc; simp only [countUp_eq, Host.Outcome.next.injEq] at h; exact .inl ⟨hc, h.symm⟩
  · split at h
    · rename_i hc; simp only [gotoAt_eq, Host.Outcome.next.injEq] at h; exact .inr ⟨hc, h.symm⟩
    · simp at h

theorem sendDataByte_cases {s t : State} (h : sendDataByte s = .next t) :
    (s.cnt.toNat < 511 ∧ t = { txByte (wrbufByte s s.cnt.toNat) s with cnt := s.cnt + 1#10 }) ∨
    (s.cnt = 511#10 ∧ t = { txByte (wrbufByte s 511) s with ph := .wresp, cnt := 512#10 }) := by
  unfold sendDataByte at h
  simp only at h
  split at h
  · rename_i hc; simp only [countUp_eq, Host.Outcome.next.injEq] at h; exact .inl ⟨hc, h.symm⟩
  · split at h
    · rename_i hc; simp only [gotoAt_eq, Host.Outcome.next.injEq] at h
      exact .inr ⟨hc, by rw [← h, hc]; rfl⟩
    · simp at h

theorem writeResponse_cases {s t : State} (h : writeResponse s = .next t) :
    t = { readTok s with ok := isAccepted (rxAnswer s), val := 0#40, busy := false, ph := .idle } := by
  unfold writeResponse at h
  split at h <;> simp_all

theorem tokenScan_cases {s t : State} (h : tokenScan s = .next t) :
    (isIdleByte (rxAnswer s) = true ∧ t = { readTok s with ph := .token }) ∨
    (rxAnswer s = Config.token ∧ t = { readTok s with sel := !s.sel, ph := .data, cnt := 0#10 }) ∨
    (isIdleByte (rxAnswer s) = false ∧ rxAnswer s ≠ Config.token ∧
      t = { readTok s with ok := false, val := 0#40, busy := false, ph := .idle }) := by
  unfold tokenScan at h
  split at h
  · rename_i hc; simp only [goto_eq, Host.Outcome.next.injEq] at h; exact .inl ⟨hc, h.symm⟩
  · rename_i hi
    split at h
    · rename_i hc; simp only [gotoAt_eq, Host.Outcome.next.injEq] at h; exact .inr (.inl ⟨hc, h.symm⟩)
    · rename_i hc; simp only [returnFail_eq, Host.Outcome.next.injEq] at h
      exact .inr (.inr ⟨by simpa using hi, hc, h.symm⟩)

theorem receiveDataByte_cases {s t : State} (h : receiveDataByte s = .next t) :
    (s.cnt.toNat < 511 ∧ t = { storeRx s.cnt.toNat (rxAnswer s) (rxByte s) with cnt := s.cnt + 1#10 }) ∨
    (s.cnt = 511#10 ∧ t = { storeRx 511 (rxAnswer s) (rxByte s) with ph := .trail, cnt := 0#10 }) := by
  unfold receiveDataByte at h
  simp only at h
  split at h
  · rename_i hc; simp only [countUp_eq, storeRx_cnt, rxByte_cnt, Host.Outcome.next.injEq] at h
    exact .inl ⟨hc, h.symm⟩
  · split at h
    · rename_i hc; simp only [gotoAt_eq, Host.Outcome.next.injEq] at h
      exact .inr ⟨hc, by rw [← h, hc]; rfl⟩
    · simp at h

theorem trailByte_cases {s t : State} (h : trailByte s = .next t) :
    (s.cnt.toNat < 2 ∧ t = { rxByte s with cnt := s.cnt + 1#10 }) ∨
    (s.cnt = 2#10 ∧ t = { rxByte s with cnt := 3#10, ok := true, val := 0#40, busy := false, ph := .idle }) := by
  unfold trailByte at h
  simp only at h
  split at h
  · rename_i hc; simp only [countUp_eq, Host.Outcome.next.injEq] at h; exact .inl ⟨hc, h.symm⟩
  · split at h
    · rename_i hc; simp only [returnSuccess_eq, Host.Outcome.next.injEq] at h; exact .inr ⟨hc, h.symm⟩
    · simp at h

end Sys2Proof.Machine
end

