-- ==== Sys2Proof/Laws/Exec.lean ====
section
/-! SUPPORT. What one step of an instruction can do, said once: `exec i s = .next t` holds if and only if (`i`, `s`, `t`) is a row of
the step tables. Every frame and every invariant is a case analysis over these rows. -/

namespace Sys2Proof.Machine

/-- The instructions that make no exchange (10_state.md R38). -/
def noExchange : Instr → Bool
  | .nop | .crc7upd _ _ | .match1 _ | .match5 _ | .reservedA | .reservedB | .reservedC | .reservedD | .reservedE
  | .reservedF => true
  | .sendcmd _ _ | .rdresp1 | .rdresp5 | .init | .wrblk _ | .rdblk _ | .cmd0 | .cmd8 | .cmd55 | .cmd41 | .cmd17 _ _
  | .cmd24 _ _ | .cmdn _ _ _ => false

/-- The bytes an instruction sends in phase `FRAME`: a frame row its own, an operation those of `FRM`. -/
def framedBytes (i : Instr) (s : State) : Vector Byte 6 := if i.isFrame then bytesOfWord (encode i) else s.frm

/-- `OK` of an operation that makes no exchange. -/
def immediateOk : Instr → State → Bool
  | .match1 e, s => matchesShort e s
  | .match5 e, s => matchesExtended (unpackExp e) s
  | .reservedA, _ | .reservedB, _ | .reservedC, _ | .reservedD, _ | .reservedE, _ | .reservedF, _ => false
  | _, _ => true

/-- `VAL` of an operation that makes no exchange. -/
def immediateVal : Instr → BitVec 40
  | .crc7upd acc byte => (crcUpdate acc byte).setWidth 40
  | _ => 0#40

/-- The rows of the step tables: the instruction, the state before and the state after. -/
inductive Row : Instr → State → State → Prop where
  | done (i : Instr) (s : State) (hi : noExchange i = true) :
      Row i s { s with ok := immediateOk i s, val := immediateVal i, busy := false, ph := .idle }
  | enterSend (code : BitVec 6) (arg : BitVec 32) (s : State) (hp : s.ph = .idle) :
      Row (.sendcmd code arg) s { s with frm := buildFrame code arg, cnt := 0#10, ph := .frame }
  | enterWrite (a : BitVec 32) (s : State) (hp : s.ph = .idle) :
      Row (.wrblk a) s { s with frm := buildFrame Config.cmd24 a, cnt := 0#10, ph := .frame }
  | enterRead (a : BitVec 32) (s : State) (hp : s.ph = .idle) :
      Row (.rdblk a) s { s with frm := buildFrame Config.cmd17 a, cnt := 0#10, ph := .frame }
  | enterScan (i : Instr) (s : State) (hi : i = .rdresp1 ∨ i = .rdresp5) (hp : s.ph = .idle) :
      Row i s { s with ph := .scan }
  | enterInit (s : State) (hp : s.ph = .idle) :
      Row .init s { csHigh s with iseq := .sReset, ph := .pre, cnt := 0#10 }
  | frameByte (i : Instr) (s : State)
      (hi : (∃ c a, i = .sendcmd c a) ∨ i = .init ∨ (∃ a, i = .wrblk a) ∨ (∃ a, i = .rdblk a) ∨ i.isFrame = true)
      (hp : s.ph = .frame) (hc : s.cnt.toNat < 5) :
      Row i s { txByte (framedBytes i s)[s.cnt.toNat] s with cnt := s.cnt + 1#10 }
  | frameDone (i : Instr) (s : State) (hi : (∃ c a, i = .sendcmd c a) ∨ (i.isFrame = true ∧ s.curOp = 0x2#4))
      (hp : s.ph = .frame) (hc : s.cnt = 5#10) :
      Row i s { txByte (framedBytes i s)[5] s with cnt := 6#10, ok := true, val := 0#40, busy := false, ph := .idle }
  | frameScan (i : Instr) (s : State)
      (hi : i = .init ∨ (∃ a, i = .wrblk a) ∨ (∃ a, i = .rdblk a) ∨
        (i.isFrame = true ∧ (s.curOp = 0x7#4 ∨ s.curOp = 0x8#4 ∨ s.curOp = 0x9#4)))
      (hp : s.ph = .frame) (hc : s.cnt = 5#10) :
      Row i s { txByte (framedBytes i s)[5] s with cnt := 6#10, ph := .scan }
  | preByte (s : State) (hp : s.ph = .pre) (hq : s.iseq = .sReset) (hc : s.cnt.toNat < 9) :
      Row .init s { txByte Config.idle s with cnt := s.cnt + 1#10 }
  | preLast (s : State) (hp : s.ph = .pre) (hq : s.iseq = .sReset) (hc : s.cnt = 9#10) :
      Row .init s { csLow (txByte Config.idle s) with
        iseq := .sGoIdle, frm := buildFrame Config.cmd0 0#32, cnt := 0#10, ph := .frame }
  | scanIdle (i : Instr) (s : State)
      (hi : i = .rdresp1 ∨ i = .rdresp5 ∨
        (i = .init ∧ (s.iseq = .sGoIdle ∨ s.iseq = .sAppCmd ∨ s.iseq = .sAppOpCond ∨ s.iseq = .sCheckIf)) ∨
        (∃ a, i = .wrblk a) ∨ (∃ a, i = .rdblk a))
      (hp : s.ph = .scan) (hx : isIdleByte (rxAnswer s) = true) :
      Row i s { readTok s with ph := .scan }
  | scanShortHit (i : Instr) (s : State)
      (hi : i = .rdresp1 ∨ (i = .init ∧ (s.iseq = .sGoIdle ∨ s.iseq = .sAppCmd ∨ s.iseq = .sAppOpCond)) ∨
        (∃ a, i = .wrblk a) ∨ (∃ a, i = .rdblk a))
      (hp : s.ph = .scan) (hx : isIdleByte (rxAnswer s) = false) :
      Row i s { readTok s with resp := s.resp.setIfInBounds 0 (rxAnswer s), respLen := .short1, ph := .disc }
  | scanExtHit (i : Instr) (s : State) (hi : i = .rdresp5 ∨ (i = .init ∧ s.iseq = .sCheckIf))
      (hp : s.ph = .scan) (hx : isIdleByte (rxAnswer s) = false) :
      Row i s { readTok s with resp := s.resp.setIfInBounds 0 (rxAnswer s), ph := .cap, cnt := 1#10 }
  | capByte (i : Instr) (s : State) (hi : i = .rdresp5 ∨ (i = .init ∧ s.iseq = .sCheckIf))
      (hp : s.ph = .cap) (h1 : 1 ≤ s.cnt.toNat) (h3 : s.cnt.toNat ≤ 3) :
      Row i s { rxByte s with resp := s.resp.setIfInBounds s.cnt.toNat (rxAnswer s), cnt := s.cnt + 1#10 }
  | capLast (i : Instr) (s : State) (hi : i = .rdresp5 ∨ (i = .init ∧ s.iseq = .sCheckIf))
      (hp : s.ph = .cap) (hc : s.cnt = 4#10) :
      Row i s { rxByte s with
        resp := s.resp.setIfInBounds 4 (rxAnswer s), respLen := .ext5, ph := .disc, cnt := 5#10 }
  | shortDone (s : State) (hp : s.ph = .disc) :
      Row .rdresp1 s { rxByte s with ok := true, val := s.resp[0].setWidth 40, busy := false, ph := .idle }
  | extendedDone (s : State) (hp : s.ph = .disc) :
      Row .rdresp5 s { rxByte s with ok := true, val := packResp s.resp, busy := false, ph := .idle }
  | initFrame (s : State) (q : ISeq) (code : BitVec 6) (arg : BitVec 32) (hp : s.ph = .disc)
      (hq :
        (s.iseq = .sGoIdle ∧ s.resp[0] = 0x01#8 ∧ q = .sCheckIf ∧ code = Config.cmd8 ∧ arg = Config.cmd8Arg) ∨
        (s.iseq = .sGoIdle ∧ s.resp[0] ≠ 0x01#8 ∧ q = .sGoIdle ∧ code = Config.cmd0 ∧ arg = 0#32) ∨
        (s.iseq = .sCheckIf ∧ s.resp = Config.r7Check ∧ q = .sAppCmd ∧ code = Config.cmd55 ∧ arg = 0#32) ∨
        (s.iseq = .sCheckIf ∧ s.resp ≠ Config.r7Check ∧ q = .sCheckIf ∧ code = Config.cmd8 ∧ arg = Config.cmd8Arg) ∨
        (s.iseq = .sAppCmd ∧ s.resp[0] = 0x01#8 ∧ q = .sAppOpCond ∧ code = Config.cmd41 ∧ arg = Config.cmd41Arg) ∨
        (s.iseq = .sAppCmd ∧ s.resp[0] ≠ 0x01#8 ∧ q = .sAppCmd ∧ code = Config.cmd55 ∧ arg = 0#32) ∨
        (s.iseq = .sAppOpCond ∧ s.resp[0] ≠ 0x00#8 ∧ q = .sAppCmd ∧ code = Config.cmd55 ∧ arg = 0#32)) :
      Row .init s { rxByte s with iseq := q, frm := buildFrame code arg, cnt := 0#10, ph := .frame }
  | initReady (s : State) (hp : s.ph = .disc) (hq : s.iseq = .sAppOpCond) (hr : s.resp[0] = 0x00#8) :
      Row .init s { rxByte s with iseq := .sReady, ok := true, val := 0#40, busy := false, ph := .idle }
  | commandRejected (i : Instr) (s : State) (hi : (∃ a, i = .wrblk a) ∨ (∃ a, i = .rdblk a)) (hp : s.ph = .disc)
      (hr : s.resp[0] ≠ 0x00#8) :
      Row i s { rxByte s with ok := false, val := 0#40, busy := false, ph := .idle }
  | writeAccepted (a : BitVec 32) (s : State) (hp : s.ph = .disc) (hr : s.resp[0] = 0x00#8) :
      Row (.wrblk a) s { rxByte s with ph := .lead, cnt := 0#10 }
  | leadIdle (a : BitVec 32) (s : State) (hp : s.ph = .lead) (hc : s.cnt.toNat < 2) :
      Row (.wrblk a) s { txByte Config.idle s with cnt := s.cnt + 1#10 }
  | leadToken (a : BitVec 32) (s : State) (hp : s.ph = .lead) (hc : s.cnt = 2#10) :
      Row (.wrblk a) s { txByte Config.token s with ph := .data, cnt := 0#10 }
  | writeByte (a : BitVec 32) (s : State) (hp : s.ph = .data) (hc : s.cnt.toNat < 511) :
      Row (.wrblk a) s { txByte (wrbufByte s s.cnt.toNat) s with cnt := s.cnt + 1#10 }
  | writeLast (a : BitVec 32) (s : State) (hp : s.ph = .data) (hc : s.cnt = 511#10) :
      Row (.wrblk a) s { txByte (wrbufByte s 511) s with ph := .wresp, cnt := 512#10 }
  | writeEnd (a : BitVec 32) (s : State) (hp : s.ph = .wresp) :
      Row (.wrblk a) s { readTok s with ok := isAccepted (rxAnswer s), val := 0#40, busy := false, ph := .idle }
  | readAccepted (a : BitVec 32) (s : State) (hp : s.ph = .disc) (hr : s.resp[0] = 0x00#8) :
      Row (.rdblk a) s { rxByte s with ph := .token }
  | tokenIdle (a : BitVec 32) (s : State) (hp : s.ph = .token) (hx : isIdleByte (rxAnswer s) = true) :
      Row (.rdblk a) s { readTok s with ph := .token }
  | tokenHit (a : BitVec 32) (s : State) (hp : s.ph = .token) (hx : rxAnswer s = Config.token) :
      Row (.rdblk a) s { readTok s with sel := !s.sel, ph := .data, cnt := 0#10 }
  | tokenBad (a : BitVec 32) (s : State) (hp : s.ph = .token) (hx : isIdleByte (rxAnswer s) = false)
      (hn : rxAnswer s ≠ Config.token) :
      Row (.rdblk a) s { readTok s with ok := false, val := 0#40, busy := false, ph := .idle }
  | readByte (a : BitVec 32) (s : State) (hp : s.ph = .data) (hc : s.cnt.toNat < 511) :
      Row (.rdblk a) s { storeRx s.cnt.toNat (rxAnswer s) (rxByte s) with cnt := s.cnt + 1#10 }
  | readLast (a : BitVec 32) (s : State) (hp : s.ph = .data) (hc : s.cnt = 511#10) :
      Row (.rdblk a) s { storeRx 511 (rxAnswer s) (rxByte s) with ph := .trail, cnt := 0#10 }
  | trailByte (a : BitVec 32) (s : State) (hp : s.ph = .trail) (hc : s.cnt.toNat < 2) :
      Row (.rdblk a) s { rxByte s with cnt := s.cnt + 1#10 }
  | trailLast (a : BitVec 32) (s : State) (hp : s.ph = .trail) (hc : s.cnt = 2#10) :
      Row (.rdblk a) s { rxByte s with cnt := 3#10, ok := true, val := 0#40, busy := false, ph := .idle }

theorem matchesShort_iff (e : Byte) (s : State) : matchesShort e s = true ↔ s.resp[0] = e := by
  simp [matchesShort]

theorem matchesExtended_iff (e : Vector Byte 5) (s : State) : matchesExtended e s = true ↔ s.resp = e := by
  simp only [matchesExtended, Bool.and_eq_true, beq_iff_eq]
  constructor
  · rintro ⟨⟨⟨⟨h0, h1⟩, h2⟩, h3⟩, h4⟩
    ext i hi
    obtain rfl | rfl | rfl | rfl | rfl : i = 0 ∨ i = 1 ∨ i = 2 ∨ i = 3 ∨ i = 4 := by omega
    all_goals simp_all
  · rintro rfl
    exact ⟨⟨⟨⟨rfl, rfl⟩, rfl⟩, rfl⟩, rfl⟩

theorem exec_sendcmd_row {code : BitVec 6} {arg : BitVec 32} {s t : State} (h : execSendcmd code arg s = .next t) :
    Row (.sendcmd code arg) s t := by
  unfold execSendcmd at h
  split at h
  case h_1 hp => cases h; exact .enterSend code arg s hp
  case h_2 hp =>
    rcases sendFrameByte_cases h with ⟨hc, rfl⟩ | ⟨hc, h⟩
    · exact .frameByte _ s (.inl ⟨_, _, rfl⟩) hp hc
    · cases h; exact .frameDone _ s (.inl ⟨_, _, rfl⟩) hp hc
  all_goals simp at h

theorem transmit_row {i : Instr} {s t : State} (hf : i.isFrame = true) (h : transmit i s = .next t) : Row i s t := by
  obtain ⟨hp, h⟩ := transmit_cases h
  have hb : bytesOfWord (encode i) = framedBytes i s := by simp [framedBytes, hf]
  rw [hb] at h
  rcases sendFrameByte_cases h with ⟨hc, rfl⟩ | ⟨hc, h⟩
  · exact .frameByte i s (.inr (.inr (.inr (.inr hf)))) hp hc
  · rcases afterFrame_cases h with ⟨ho, rfl⟩ | ⟨ho, rfl⟩
    · exact .frameDone i s (.inr ⟨hf, ho⟩) hp hc
    · exact .frameScan i s (.inr (.inr (.inr ⟨hf, ho⟩))) hp hc

theorem exec_rdresp1_row {s t : State} (h : execRdresp1 s = .next t) : Row .rdresp1 s t := by
  unfold execRdresp1 at h
  split at h
  case h_1 hp => cases h; exact .enterScan _ s (.inl rfl) hp
  case h_2 hp =>
    rcases scanShort_cases h with ⟨hx, rfl⟩ | ⟨hx, rfl⟩
    · exact .scanIdle _ s (.inl rfl) hp hx
    · exact .scanShortHit _ s (.inl rfl) hp hx
  case h_3 hp => cases h; exact .shortDone s hp
  all_goals simp at h

theorem exec_rdresp5_row {s t : State} (h : execRdresp5 s = .next t) : Row .rdresp5 s t := by
  unfold execRdresp5 at h
  split at h
  case h_1 hp => cases h; exact .enterScan _ s (.inr rfl) hp
  case h_2 hp =>
    rcases scanExtended_cases h with ⟨hx, rfl⟩ | ⟨hx, rfl⟩
    · exact .scanIdle _ s (.inr (.inl rfl)) hp hx
    · exact .scanExtHit _ s (.inl rfl) hp hx
  case h_3 hp =>
    rcases captureByte_cases h with ⟨h1, h3, rfl⟩ | ⟨hc, rfl⟩
    · exact .capByte _ s (.inl rfl) hp h1 h3
    · exact .capLast _ s (.inl rfl) hp hc
  case h_4 hp => cases h; exact .extendedDone s hp
  all_goals simp at h

theorem exec_init_row {s t : State} (h : execInit s = .next t) : Row .init s t := by
  unfold execInit at h
  split at h
  case h_1 hp => cases h; exact .enterInit s hp
  case h_2 hp =>
    split at h
    case isTrue hq =>
      rcases preambleByte_cases h with ⟨hc, rfl⟩ | ⟨hc, rfl⟩
      · exact .preByte s hp hq hc
      · exact .preLast s hp hq hc
    case isFalse => simp at h
  case h_3 hp =>
    rcases sendFrameByte_cases h with ⟨hc, rfl⟩ | ⟨hc, h⟩
    · exact .frameByte _ s (.inr (.inl rfl)) hp hc
    · cases h; exact .frameScan _ s (.inl rfl) hp hc
  case h_4 hp =>
    rcases initScan_cases h with ⟨hq, h⟩ | ⟨hq, h⟩
    · rcases scanShort_cases h with ⟨hx, rfl⟩ | ⟨hx, rfl⟩
      · exact .scanIdle _ s (.inr (.inr (.inl ⟨rfl, by tauto⟩))) hp hx
      · exact .scanShortHit _ s (.inr (.inl ⟨rfl, hq⟩)) hp hx
    · rcases scanExtended_cases h with ⟨hx, rfl⟩ | ⟨hx, rfl⟩
      · exact .scanIdle _ s (.inr (.inr (.inl ⟨rfl, by tauto⟩))) hp hx
      · exact .scanExtHit _ s (.inr ⟨rfl, hq⟩) hp hx
  case h_5 hp =>
    split at h
    case isTrue hq =>
      rcases captureByte_cases h with ⟨h1, h3, rfl⟩ | ⟨hc, rfl⟩
      · exact .capByte _ s (.inr ⟨rfl, hq⟩) hp h1 h3
      · exact .capLast _ s (.inr ⟨rfl, hq⟩) hp hc
    case isFalse => simp at h
  case h_6 hp =>
    have hs : ∀ e, matchesShort e (rxByte s) = false ↔ s.resp[0] ≠ e := by
      intro e; rw [← not_iff_not]; simp [matchesShort_iff]
    have he : ∀ e, matchesExtended e (rxByte s) = false ↔ s.resp ≠ e := by
      intro e; rw [← not_iff_not]; simp [matchesExtended_iff]
    have hs' : ∀ e, matchesShort e (rxByte s) = true ↔ s.resp[0] = e := fun e => matchesShort_iff e _
    have he' : ∀ e, matchesExtended e (rxByte s) = true ↔ s.resp = e := fun e => matchesExtended_iff e _
    rcases initDecide_cases h with ⟨hq, hm, rfl⟩ | ⟨hq, hm, rfl⟩ | ⟨hq, hm, rfl⟩ | ⟨hq, hm, rfl⟩ | ⟨hq, hm, rfl⟩ |
      ⟨hq, hm, rfl⟩ | ⟨hq, hm, rfl⟩ | ⟨hq, hm, rfl⟩
    · exact .initFrame s _ _ _ hp (.inl ⟨hq, (hs' _).1 hm, rfl, rfl, rfl⟩)
    · exact .initFrame s s.iseq _ _ hp (.inr (.inl ⟨hq, (hs _).1 hm, hq, rfl, rfl⟩))
    · exact .initFrame s _ _ _ hp (.inr (.inr (.inl ⟨hq, (he' _).1 hm, rfl, rfl, rfl⟩)))
    · exact .initFrame s s.iseq _ _ hp (.inr (.inr (.inr (.inl ⟨hq, (he _).1 hm, hq, rfl, rfl⟩))))
    · exact .initFrame s _ _ _ hp (.inr (.inr (.inr (.inr (.inl ⟨hq, (hs' _).1 hm, rfl, rfl, rfl⟩)))))
    · exact .initFrame s s.iseq _ _ hp (.inr (.inr (.inr (.inr (.inr (.inl ⟨hq, (hs _).1 hm, hq, rfl, rfl⟩))))))
    · exact .initReady s hp hq ((hs' _).1 hm)
    · exact .initFrame s _ _ _ hp (.inr (.inr (.inr (.inr (.inr (.inr ⟨hq, (hs _).1 hm, rfl, rfl, rfl⟩))))))
  all_goals simp at h

theorem exec_wrblk_row {a : BitVec 32} {s t : State} (h : execWrblk a s = .next t) : Row (.wrblk a) s t := by
  unfold execWrblk at h
  split at h
  case h_1 hp => cases h; exact .enterWrite a s hp
  case h_2 hp =>
    rcases sendFrameByte_cases h with ⟨hc, rfl⟩ | ⟨hc, h⟩
    · exact .frameByte _ s (.inr (.inr (.inl ⟨a, rfl⟩))) hp hc
    · cases h; exact .frameScan _ s (.inr (.inl ⟨a, rfl⟩)) hp hc
  case h_3 hp =>
    rcases scanShort_cases h with ⟨hx, rfl⟩ | ⟨hx, rfl⟩
    · exact .scanIdle _ s (.inr (.inr (.inr (.inl ⟨a, rfl⟩)))) hp hx
    · exact .scanShortHit _ s (.inr (.inr (.inl ⟨a, rfl⟩))) hp hx
  case h_4 hp =>
    simp only [discardByte, matchesShort_iff] at h
    split at h
    · rename_i hr; cases h; exact .writeAccepted a s hp hr
    · rename_i hr; cases h; exact .commandRejected _ s (.inl ⟨a, rfl⟩) hp hr
  case h_5 hp =>
    rcases leadByte_cases h with ⟨hc, rfl⟩ | ⟨hc, rfl⟩
    · exact .leadIdle a s hp hc
    · exact .leadToken a s hp hc
  case h_6 hp =>
    rcases sendDataByte_cases h with ⟨hc, rfl⟩ | ⟨hc, rfl⟩
    · exact .writeByte a s hp hc
    · exact .writeLast a s hp hc
  case h_7 hp => rw [writeResponse_cases h]; exact .writeEnd a s hp
  all_goals simp at h

theorem exec_rdblk_row {a : BitVec 32} {s t : State} (h : execRdblk a s = .next t) : Row (.rdblk a) s t := by
  unfold execRdblk at h
  split at h
  case h_1 hp => cases h; exact .enterRead a s hp
  case h_2 hp =>
    rcases sendFrameByte_cases h with ⟨hc, rfl⟩ | ⟨hc, h⟩
    · exact .frameByte _ s (.inr (.inr (.inr (.inl ⟨a, rfl⟩)))) hp hc
    · cases h; exact .frameScan _ s (.inr (.inr (.inl ⟨a, rfl⟩))) hp hc
  case h_3 hp =>
    rcases scanShort_cases h with ⟨hx, rfl⟩ | ⟨hx, rfl⟩
    · exact .scanIdle _ s (.inr (.inr (.inr (.inr ⟨a, rfl⟩)))) hp hx
    · exact .scanShortHit _ s (.inr (.inr (.inr ⟨a, rfl⟩))) hp hx
  case h_4 hp =>
    simp only [discardByte, matchesShort_iff] at h
    split at h
    · rename_i hr; cases h; exact .readAccepted a s hp hr
    · rename_i hr; cases h; exact .commandRejected _ s (.inr ⟨a, rfl⟩) hp hr
  case h_5 hp =>
    rcases tokenScan_cases h with ⟨hx, rfl⟩ | ⟨hx, rfl⟩ | ⟨hx, hn, rfl⟩
    · exact .tokenIdle a s hp hx
    · exact .tokenHit a s hp hx
    · exact .tokenBad a s hp hx hn
  case h_6 hp =>
    rcases receiveDataByte_cases h with ⟨hc, rfl⟩ | ⟨hc, rfl⟩
    · exact .readByte a s hp hc
    · exact .readLast a s hp hc
  case h_7 hp =>
    rcases trailByte_cases h with ⟨hc, rfl⟩ | ⟨hc, rfl⟩
    · exact .trailByte a s hp hc
    · exact .trailLast a s hp hc
  all_goals simp at h

/-- Every step of every instruction is a row of the step tables. -/
theorem exec_row {i : Instr} {s t : State} (h : exec i s = .next t) : Row i s t := by
  cases i
  case sendcmd => exact exec_sendcmd_row h
  case rdresp1 => exact exec_rdresp1_row h
  case rdresp5 => exact exec_rdresp5_row h
  case init => exact exec_init_row h
  case wrblk => exact exec_wrblk_row h
  case rdblk => exact exec_rdblk_row h
  case cmd0 => exact transmit_row rfl h
  case cmd8 => exact transmit_row rfl h
  case cmd55 => exact transmit_row rfl h
  case cmd41 => exact transmit_row rfl h
  case cmd17 => exact transmit_row rfl h
  case cmd24 => exact transmit_row rfl h
  case cmdn => exact transmit_row rfl h
  all_goals cases h; exact .done _ s rfl

theorem exec_frame {i : Instr} (hf : i.isFrame = true) (s : State) : exec i s = transmit i s := by
  cases i <;> first | rfl | simp [Instr.isFrame] at hf

/-- Every row of the step tables is a step: with `exec_row`, the step tables say exactly what `exec` does. -/
theorem Row.exec {i : Instr} {s t : State} (h : Row i s t) : exec i s = .next t := by
  cases h
  case done hi => cases i <;> first | rfl | simp [noExchange] at hi
  case enterSend hp => simp [Machine.exec, execSendcmd, hp]
  case enterWrite hp => simp [Machine.exec, execWrblk, hp]
  case enterRead hp => simp [Machine.exec, execRdblk, hp]
  case enterScan hi hp => rcases hi with rfl | rfl <;> simp [Machine.exec, execRdresp1, execRdresp5, hp]
  case enterInit hp => simp [Machine.exec, execInit, initEntry, hp]
  case frameByte hi hp hc =>
    rcases hi with ⟨c, a, rfl⟩ | rfl | ⟨a, rfl⟩ | ⟨a, rfl⟩ | hf
    · simp [Machine.exec, execSendcmd, hp, sendFrameByte_lt _ _ _ hc, framedBytes, Instr.isFrame]
    · simp [Machine.exec, execInit, hp, sendFrameByte_lt _ _ _ hc, framedBytes, Instr.isFrame]
    · simp [Machine.exec, execWrblk, hp, sendFrameByte_lt _ _ _ hc, framedBytes, Instr.isFrame]
    · simp [Machine.exec, execRdblk, hp, sendFrameByte_lt _ _ _ hc, framedBytes, Instr.isFrame]
    · simp [exec_frame hf, transmit, hp, sendFrameByte_lt _ _ _ hc, framedBytes, hf]
  case frameDone hp hc hi =>
    rcases hi with ⟨c, a, rfl⟩ | ⟨hf, ho⟩
    · simp [Machine.exec, execSendcmd, hp, sendFrameByte_last _ _ _ hc, framedBytes, Instr.isFrame]
    · simp [exec_frame hf, transmit, hp, sendFrameByte_last _ _ _ hc, framedBytes, hf, afterFrame, ho]
  case frameScan hp hc hi =>
    rcases hi with rfl | ⟨a, rfl⟩ | ⟨a, rfl⟩ | ⟨hf, ho⟩
    · simp [Machine.exec, execInit, hp, sendFrameByte_last _ _ _ hc, framedBytes, Instr.isFrame]
    · simp [Machine.exec, execWrblk, hp, sendFrameByte_last _ _ _ hc, framedBytes, Instr.isFrame]
    · simp [Machine.exec, execRdblk, hp, sendFrameByte_last _ _ _ hc, framedBytes, Instr.isFrame]
    · rcases ho with ho | ho | ho <;>
        simp [exec_frame hf, transmit, hp, sendFrameByte_last _ _ _ hc, framedBytes, hf, afterFrame, ho]
  case preByte hp hq hc => simp [Machine.exec, execInit, hp, hq, preambleByte, hc]
  case preLast hp hq hc => simp [Machine.exec, execInit, hp, hq, preambleByte, hc]
  case scanIdle hp hx hi =>
    rcases hi with rfl | rfl | ⟨rfl, hq | hq | hq | hq⟩ | ⟨a, rfl⟩ | ⟨a, rfl⟩ <;>
      simp [Machine.exec, execRdresp1, execRdresp5, execInit, execWrblk, execRdblk, initScan, scanShort, scanExtended, *]
  case scanShortHit hp hx hi =>
    rcases hi with rfl | ⟨rfl, hq | hq | hq⟩ | ⟨a, rfl⟩ | ⟨a, rfl⟩ <;>
      simp [Machine.exec, execRdresp1, execInit, execWrblk, execRdblk, initScan, scanShort, *]
  case scanExtHit hp hx hi =>
    rcases hi with rfl | ⟨rfl, hq⟩ <;> simp [Machine.exec, execRdresp5, execInit, initScan, scanExtended, *]
  case capByte hp h1 h3 hi =>
    rcases hi with rfl | ⟨rfl, hq⟩ <;> simp [Machine.exec, execRdresp5, execInit, captureByte, *]
  case capLast hp hc hi =>
    rcases hi with rfl | ⟨rfl, hq⟩ <;> simp [Machine.exec, execRdresp5, execInit, captureByte, *]
  case shortDone hp => simp [Machine.exec, execRdresp1, hp, discardByte]
  case extendedDone hp => simp [Machine.exec, execRdresp5, hp, discardByte]
  case initFrame q code arg hp hq =>
    have hs : ∀ e, matchesShort e (rxByte s) = decide (s.resp[0] = e) := by
      intro e; rw [Bool.eq_iff_iff, matchesShort_iff]; simp
    have he : ∀ e, matchesExtended e (rxByte s) = decide (s.resp = e) := by
      intro e; rw [Bool.eq_iff_iff, matchesExtended_iff]; simp
    rcases hq with ⟨hq, hr, rfl, rfl, rfl⟩ | ⟨hq, hr, rfl, rfl, rfl⟩ | ⟨hq, hr, rfl, rfl, rfl⟩ | ⟨hq, hr, rfl, rfl, rfl⟩ |
      ⟨hq, hr, rfl, rfl, rfl⟩ | ⟨hq, hr, rfl, rfl, rfl⟩ | ⟨hq, hr, rfl, rfl, rfl⟩ <;>
    simp [Machine.exec, execInit, hp, discardByte, initDecide, hq, hs, he, Config.r1IdleState, Config.r1Ready, hr]
  case initReady hp hq hr =>
    simp [Machine.exec, execInit, hp, discardByte, initDecide, hq, matchesShort, Config.r1Ready, hr]
  case commandRejected hi hp hr =>
    rcases hi with ⟨a, rfl⟩ | ⟨a, rfl⟩ <;>
      simp [Machine.exec, execWrblk, execRdblk, hp, discardByte, matchesShort, Config.r1Ready, hr]
  case writeAccepted hp hr => simp [Machine.exec, execWrblk, hp, discardByte, matchesShort, Config.r1Ready, hr]
  case leadIdle hp hc => simp [Machine.exec, execWrblk, hp, leadByte, hc]
  case leadToken hp hc => simp [Machine.exec, execWrblk, hp, leadByte, hc]
  case writeByte hp hc => simp [Machine.exec, execWrblk, hp, sendDataByte, hc]
  case writeLast hp hc => simp [Machine.exec, execWrblk, hp, sendDataByte, hc]
  case writeEnd hp => cases h : isAccepted (rxAnswer s) <;> simp [Machine.exec, execWrblk, hp, writeResponse, h]
  case readAccepted hp hr => simp [Machine.exec, execRdblk, hp, discardByte, matchesShort, Config.r1Ready, hr]
  case tokenIdle hp hx => simp [Machine.exec, execRdblk, hp, tokenScan, hx]
  case tokenHit hp hx => simp [Machine.exec, execRdblk, hp, tokenScan, isIdleByte, Config.idle, Config.token, hx]
  case tokenBad hp hx hn => simp [Machine.exec, execRdblk, hp, tokenScan, hx, hn]
  case readByte hp hc => simp [Machine.exec, execRdblk, hp, receiveDataByte, hc]
  case readLast hp hc => simp [Machine.exec, execRdblk, hp, receiveDataByte, hc]
  case trailByte hp hc => simp [Machine.exec, execRdblk, hp, Machine.trailByte, hc]
  case trailLast hp hc => simp [Machine.exec, execRdblk, hp, Machine.trailByte, hc]

end Sys2Proof.Machine
end

