-- ==== Sys2Proof/Laws/Memory.lean ====
section
/-! SUPPORT. The laws of the buffers: a read after a write, and every write keeps the canonical form. -/

namespace Sys2Proof.Machine

theorem Memory.read?_write_same (m : Memory) (a : Nat) (v : Byte) : Memory.read? (Memory.write m a v) a = some v := by
  induction m with
  | nil => simp [Memory.write, Memory.read?]
  | cons c rest ih =>
    obtain ⟨b, u⟩ := c
    unfold Memory.write
    split
    · simp [Memory.read?]
    · split
      · simp [Memory.read?]
      · rename_i hne
        simp [Memory.read?, hne, ih]

theorem Memory.read?_write_other (m : Memory) (a x : Nat) (v : Byte) (h : x ≠ a) :
    Memory.read? (Memory.write m a v) x = Memory.read? m x := by
  induction m with
  | nil => simp [Memory.write, Memory.read?, h]
  | cons c rest ih =>
    obtain ⟨b, u⟩ := c
    unfold Memory.write
    split
    · simp [Memory.read?, h]
    · split
      · rename_i hab; subst hab; simp [Memory.read?, h]
      · simp [Memory.read?, ih]

theorem Memory.byteAt_write_same (b : BufId) (m : Memory) (a : Nat) (v : Byte) :
    Memory.byteAt b (Memory.write m a v) a = v := by
  simp [Memory.byteAt, Memory.read?_write_same]

theorem Memory.byteAt_write_other (b : BufId) (m : Memory) (a x : Nat) (v : Byte) (h : x ≠ a) :
    Memory.byteAt b (Memory.write m a v) x = Memory.byteAt b m x := by
  simp [Memory.byteAt, Memory.read?_write_other m a x v h]

theorem Memory.risingAbove_write (m : Memory) (lo a : Nat) (v : Byte) (hlo : lo < a) (h : Memory.risingAbove lo m = true) :
    Memory.risingAbove lo (Memory.write m a v) = true := by
  induction m generalizing lo with
  | nil => simp [Memory.write, Memory.risingAbove, hlo]
  | cons c rest ih =>
    obtain ⟨b, u⟩ := c
    simp only [Memory.risingAbove, Bool.and_eq_true, decide_eq_true_eq] at h
    unfold Memory.write
    split
    · rename_i hab; simp [Memory.risingAbove, hlo, hab, h.2]
    · split
      · rename_i hab; subst hab; simp [Memory.risingAbove, hlo, h.2]
      · rename_i h1 h2
        simp only [Memory.risingAbove, Bool.and_eq_true, decide_eq_true_eq]
        exact ⟨h.1, ih b (by omega) h.2⟩

theorem Memory.all_below_write (m : Memory) (n a : Nat) (v : Byte) (ha : a < n)
    (h : m.all (fun c => decide (c.1 < n)) = true) :
    (Memory.write m a v).all (fun c => decide (c.1 < n)) = true := by
  induction m with
  | nil => simp [Memory.write, ha]
  | cons c rest ih =>
    obtain ⟨b, u⟩ := c
    simp only [List.all_cons, Bool.and_eq_true, decide_eq_true_eq] at h
    unfold Memory.write
    split
    · simp only [List.all_cons, Bool.and_eq_true, decide_eq_true_eq]; exact ⟨ha, h.1, h.2⟩
    · split
      · simp only [List.all_cons, Bool.and_eq_true, decide_eq_true_eq]; exact ⟨ha, h.2⟩
      · simp only [List.all_cons, Bool.and_eq_true, decide_eq_true_eq]; exact ⟨h.1, ih h.2⟩

/-- A write below `BLOCK_LEN` keeps the canonical form. -/
theorem Memory.wf_write (m : Memory) (a : Nat) (v : Byte) (ha : a < Config.blockLen) (h : Memory.wf m = true) :
    Memory.wf (Memory.write m a v) = true := by
  cases m with
  | nil => simp [Memory.write, Memory.wf, Memory.risingAbove, ha]
  | cons c rest =>
    obtain ⟨b, u⟩ := c
    simp only [Memory.wf, Bool.and_eq_true] at h
    have hall := Memory.all_below_write ((b, u) :: rest) Config.blockLen a v ha h.2
    unfold Memory.write at hall ⊢
    split at hall
    · rename_i hab
      simp only [hab, if_true, Memory.wf, Bool.and_eq_true]
      exact ⟨by simp [Memory.risingAbove, hab, h.1], hall⟩
    · rename_i hnab
      split at hall
      · rename_i hab; subst hab; simp only [lt_irrefl, if_false, if_true, Memory.wf, Bool.and_eq_true]; exact ⟨h.1, hall⟩
      · rename_i hne
        simp only [hnab, hne, if_false, Memory.wf, Bool.and_eq_true]
        exact ⟨Memory.risingAbove_write rest b a v (by omega) h.1, hall⟩

theorem wf_hostWriteWrbuf (i : Fin 512) (v : Byte) (s : State) (h : Memory.wf s.wrbuf = true) :
    Memory.wf (hostWriteWrbuf i v s).wrbuf = true :=
  Memory.wf_write s.wrbuf i.val v i.isLt h

theorem wf_storeRx_rxA (i : Nat) (v : Byte) (s : State) (hi : i < Config.blockLen) (h : Memory.wf s.rxA = true) :
    Memory.wf (storeRx i v s).rxA = true := by
  simp only [storeRx_rxA]; split
  · exact h
  · exact Memory.wf_write s.rxA i v hi h

theorem wf_storeRx_rxB (i : Nat) (v : Byte) (s : State) (hi : i < Config.blockLen) (h : Memory.wf s.rxB = true) :
    Memory.wf (storeRx i v s).rxB = true := by
  simp only [storeRx_rxB]; split
  · exact Memory.wf_write s.rxB i v hi h
  · exact h

/-- Reset lists no byte, so its buffers have the canonical form. -/
theorem wf_reset : Memory.wf State.reset.wrbuf = true ∧ Memory.wf State.reset.rxA = true ∧ Memory.wf State.reset.rxB = true :=
  ⟨rfl, rfl, rfl⟩

end Sys2Proof.Machine
end

