-- ==== Sys2Proof/Laws/Step.lean ====
section
/-! SUPPORT. What `step`, `coreStep` and a run of steps do, in equations a proof about runs rewrites with. -/

namespace Sys2Proof

theorem isFrame_decodeOp (op : BitVec 4) (operand : BitVec 40) : (decodeOp op operand).isFrame = false := by
  unfold decodeOp
  split <;> rfl

theorem isFrame_decodeFrame (w : FrameWord) : (decodeFrame w).isFrame = true := by
  unfold decodeFrame
  repeat' split
  all_goals rfl

/-- What a frame word decodes to encodes to that word. -/
theorem encode_decodeFrame (w : FrameWord) (hs : w.extractLsb' 46 2 = 0b01#2) (he : w.extractLsb' 0 1 = 1#1) :
    encode (decodeFrame w) = w := by
  have hf := frameOf_fields w hs he
  unfold decodeFrame
  split
  · rename_i h; rw [h]; rfl
  split
  · rename_i h; rw [h]; rfl
  split
  · rename_i h; rw [h]; rfl
  split
  · rename_i h; rw [h]; rfl
  split
  · rename_i h; rw [h] at hf; exact hf
  split
  · rename_i h; rw [h] at hf; exact hf
  · exact hf

namespace Machine

/-! ## One step -/

theorem step_nil (s : State) (h : s.host = []) : step s = coreStep s := by
  simp [step, h]

theorem step_cons (s : State) (m : HostMove) (rest : List HostMove) (h : s.host = m :: rest) :
    step s = hostStep m { s with host := rest } := by
  simp [step, h]

/-- A request to an idle core: acceptance latches it and the operation takes its first step (10_state.md R34). -/
theorem step_request (s : State) (op : BitVec 4) (operand : BitVec 40) (rest : List HostMove)
    (h : s.host = .writeReq (op ++ operand) :: rest) (hb : s.busy = false) :
    step s = exec (decodeOp op operand) { s with host := rest, curOp := op, opd := operand, busy := true } := by
  have hr : (op ++ operand : BitVec 44) = reqOf op operand := rfl
  rw [step_cons s _ rest h, hr]
  simp [hostStep, writeReq, hb, accept, decodeReq]

theorem coreStep_idle (s : State) (hb : s.busy = false) : coreStep s = .next s := by
  simp [coreStep, hb]

/-- In every phase but `FRAME` the core runs the latched request. -/
theorem coreStep_request (s : State) (hb : s.busy = true) (hp : s.ph ≠ .frame) :
    coreStep s = exec (decodeOp s.curOp s.opd) s := by
  simp [coreStep, hb, fetchWord, hp, decode_request]

theorem wordOfBytes_ends (f : Vector Byte 6) :
    (wordOfBytes f).extractLsb' 46 2 = f[0].extractLsb' 6 2 ∧ (wordOfBytes f).extractLsb' 0 1 = f[5].extractLsb' 0 1 := by
  unfold wordOfBytes
  simp (disch := omega) only [BitVec.extractLsb'_append_eq_of_add_le, BitVec.extractLsb'_append_eq_of_le, Nat.reduceSub,
    and_self]

/-- In phase `FRAME` the core sends the next byte of `FRM`, whichever frame row that frame decodes to. -/
theorem coreStep_frame (s : State) (hb : s.busy = true) (hp : s.ph = .frame) (h0 : s.frm[0].extractLsb' 6 2 = 0b01#2)
    (h5 : s.frm[5].extractLsb' 0 1 = 1#1) : coreStep s = sendFrameByte s.frm (afterFrame s.curOp) s := by
  have hs := (wordOfBytes_ends s.frm).1.trans h0
  have he := (wordOfBytes_ends s.frm).2.trans h5
  have hw : fetchWord s = wordOfBytes s.frm := by simp [fetchWord, hp]
  simp only [coreStep, hb, if_true, hw]
  rw [decode_frame _ hs he]
  simp only [exec_frame (isFrame_decodeFrame _), transmit, hp, if_true, encode_decodeFrame _ hs he,
    bytesOfWord_wordOfBytes]

/-- A frame that `SendCommand` built has the start bits and the end bit. -/
theorem buildFrame_ends (code : BitVec 6) (arg : BitVec 32) :
    (buildFrame code arg)[0].extractLsb' 6 2 = 0b01#2 ∧ (buildFrame code arg)[5].extractLsb' 0 1 = 1#1 := by
  rw [← bytesOfWord_frameOf]
  have h := Laws.EncodeShape.frameOf_ends code arg (frameCrc code arg)
  have hw := wordOfBytes_ends (bytesOfWord (frameOf code arg (frameCrc code arg)))
  rw [wordOfBytes_bytesOfWord] at hw
  exact ⟨hw.1 ▸ h.1, hw.2 ▸ h.2⟩

/-- A step of phase `FRAME` on a frame that `SendCommand` built. -/
theorem coreStep_buildFrame (s : State) (code : BitVec 6) (arg : BitVec 32) (hb : s.busy = true) (hp : s.ph = .frame)
    (hf : s.frm = buildFrame code arg) : coreStep s = sendFrameByte s.frm (afterFrame s.curOp) s := by
  have h := buildFrame_ends code arg
  exact coreStep_frame s hb hp (hf ▸ h.1) (hf ▸ h.2)

/-! ## Runs -/

@[simp] theorem run_zero (s : State) : Host.Core.run Sys2Proof.core 0 s = .next s := rfl

/-- A run of `k + 1` steps whose first step answers a next state. -/
theorem run_succ (k : Nat) (s t : State) (h : step s = .next t) :
    Host.Core.run Sys2Proof.core (k + 1) s = Host.Core.run Sys2Proof.core k t := by
  have h' : Sys2Proof.core.step s = .next t := h
  simp [Host.Core.run, h']

/-- A run of `j + k` steps is a run of `j` and then one of `k`. -/
theorem run_add (j k : Nat) (s t : State) (h : Host.Core.run Sys2Proof.core j s = .next t) :
    Host.Core.run Sys2Proof.core (j + k) s = Host.Core.run Sys2Proof.core k t := by
  induction j generalizing s with
  | zero => cases h; rw [Nat.zero_add]
  | succ j ih =>
    rw [Nat.succ_add]
    cases hs : Sys2Proof.core.step s with
    | next u => simp only [Host.Core.run, hs] at h ⊢; exact ih u h
    | fault r => simp [Host.Core.run, hs] at h
    | refused r => simp [Host.Core.run, hs] at h

end Machine

end Sys2Proof
end

