-- ==== Sys2Proof/Tests/Slice0.lean ====
section
/-! SUPPORT. Tests: well-formedness, decoding of words written out from the spec's encodings, single steps with results taken from
95_test_vectors.md or by hand from the step tables, and a witness for the hypotheses of every obligation that has some. -/

namespace Sys2Proof.Tests

open Sys2Proof Sys2Proof.Machine Sys2Proof.Safety

/-- The next state of an answer, if it is one. -/
def nextOf : Answer → Option State
  | .next s => some s
  | .fault _ => none
  | .refused _ => none

/-- Reset, but busy with operation `op` at phase `ph` and count `cnt`. -/
def busyAt (op : BitVec 4) (ph : Phase) (cnt : BitVec 10) : State :=
  { State.reset with busy := true, curOp := op, ph := ph, cnt := cnt }

/-- As `busyAt`, with a script of answers. -/
def hearing (op : BitVec 4) (ph : Phase) (cnt : BitVec 10) (script : List Byte) : State :=
  { busyAt op ph cnt with rx := script }

/-- Reset, with the host about to make the moves `moves`. -/
def hosted (moves : List HostMove) : State := { State.reset with host := moves }

/-- A register of the state after the first step that runs the table word `w` on the reset state. -/
def firstStep {α : Type} (nbits w : Nat) (field : State → α) : Option α :=
  (nextOf (step (State.reset.withFetchWord nbits w))).map field

/-! ## Well-formedness: an ill-formed term for each check (30_encoding.md R122) -/

theorem test_wf_refuses_cmd17_wrong_crc : (Instr.cmd17 0#32 0x2B#7).wf = false := by decide +kernel
theorem test_wf_refuses_cmd24_wrong_crc : (Instr.cmd24 0#32 0x00#7).wf = false := by decide +kernel
theorem test_wf_refuses_cmdn_wrong_crc : (Instr.cmdn 63#6 0xFFFFFFFF#32 0x0D#7).wf = false := by decide +kernel
theorem test_wf_refuses_cmdn_naming_cmd0 : (Instr.cmdn 0#6 0#32 0x4A#7).wf = false := by decide +kernel
theorem test_wf_refuses_cmdn_naming_cmd8 : (Instr.cmdn 8#6 0x000001AA#32 0x43#7).wf = false := by decide +kernel
theorem test_wf_refuses_cmdn_naming_cmd55 : (Instr.cmdn 55#6 0#32 0x32#7).wf = false := by decide +kernel
theorem test_wf_refuses_cmdn_naming_cmd41 : (Instr.cmdn 41#6 0x40000000#32 0x3B#7).wf = false := by decide +kernel
theorem test_wf_refuses_cmdn_naming_cmd17 : (Instr.cmdn 17#6 0#32 0x2A#7).wf = false := by decide +kernel
theorem test_wf_refuses_cmdn_naming_cmd24 : (Instr.cmdn 24#6 0#32 0x37#7).wf = false := by decide +kernel
/-- V60, V61, V62, V69: the checksums of the vectors are the ones accepted. -/
theorem test_wf_accepts_vectors :
    (Instr.cmd17 0xFFFFFFFF#32 0x3F#7).wf = true ∧ (Instr.cmd24 0xFFFFFFFF#32 0x22#7).wf = true ∧
    (Instr.cmdn 63#6 0xFFFFFFFF#32 0x0C#7).wf = true ∧ (Instr.cmdn 1#6 0#32 0x7C#7).wf = true ∧
    (Instr.cmdn 8#6 0#32 (frameCrc 8#6 0#32)).wf = true := by decide +kernel

/-! ## Decoding: a word of every row, from 30_encoding.md R109 to R111, R117 and the vectors of 95_test_vectors.md -/

/-- V81. -/
theorem test_decode_nop : decodeTableWord 44 0x00000000000 = some .nop := by decide
/-- R110, R111, bit by bit: `OP` 0001, `ACC` in bits 14:8, `BYTE` in bits 7:0 (V18). -/
theorem test_decode_crc7upd :
    decodeTableWord 44 0b0001_0000000000000000000000000_0101010_01010101 = some (.crc7upd 0x2A#7 0x55#8) := by decide
/-- V51, and its word with the ignored bits 39:38 set. -/
theorem test_decode_sendcmd :
    decodeTableWord 44 0x208000001AA = some (.sendcmd 8#6 0x000001AA#32) ∧
    decodeTableWord 44 0x2C8000001AA = some (.sendcmd 8#6 0x000001AA#32) := by decide
/-- V20 and V86. -/
theorem test_decode_rdresp1 :
    decodeTableWord 44 0x30000000000 = some .rdresp1 ∧ decodeTableWord 44 0x3123456789A = some .rdresp1 := by decide
/-- V26. -/
theorem test_decode_rdresp5 : decodeTableWord 44 0x40000000000 = some .rdresp5 := by decide
/-- V23. -/
theorem test_decode_match1 : decodeTableWord 44 0x50000000001 = some (.match1 0x01#8) := by decide
/-- V27. -/
theorem test_decode_match5 : decodeTableWord 44 0x601000001AB = some (.match5 0x01000001AB#40) := by decide
/-- V30 and V86. -/
theorem test_decode_init :
    decodeTableWord 44 0x70000000000 = some .init ∧ decodeTableWord 44 0x7FFFFFFFFFF = some .init := by decide
/-- V86: bits 39:32 are ignored. -/
theorem test_decode_wrblk : decodeTableWord 44 0x8AB00000200 = some (.wrblk 0x00000200#32) := by decide
/-- PR3. -/
theorem test_decode_rdblk : decodeTableWord 44 0x90000000400 = some (.rdblk 0x00000400#32) := by decide
/-- V82, V83 and the codes between. -/
theorem test_decode_reserved :
    decodeTableWord 44 0xA0000000000 = some .reservedA ∧ decodeTableWord 44 0xB0000000000 = some .reservedB ∧
    decodeTableWord 44 0xC0000000000 = some .reservedC ∧ decodeTableWord 44 0xD0000000000 = some .reservedD ∧
    decodeTableWord 44 0xE0000000000 = some .reservedE ∧ decodeTableWord 44 0xF123456789A = some .reservedF := by decide
/-- R117: the four constant frames. -/
theorem test_decode_constant_frames :
    decodeTableWord 48 0x400000000095 = some .cmd0 ∧ decodeTableWord 48 0x48000001AA87 = some .cmd8 ∧
    decodeTableWord 48 0x770000000065 = some .cmd55 ∧ decodeTableWord 48 0x694000000077 = some .cmd41 := by decide
/-- V63, bit by bit from R101: 01, code 010001, the argument, the checksum 0101110, the end bit. -/
theorem test_decode_cmd17 :
    decodeTableWord 48 0b01_010001_00010010001101000101011001111000_0101110_1 = some (.cmd17 0x12345678#32 0x2E#7) := by
  decide
/-- V57. -/
theorem test_decode_cmd24 : decodeTableWord 48 0x580000020043 = some (.cmd24 0x00000200#32 0x21#7) := by decide
/-- V62, V68. -/
theorem test_decode_cmdn :
    decodeTableWord 48 0x7FFFFFFFFF19 = some (.cmdn 63#6 0xFFFFFFFF#32 0x0C#7) ∧
    decodeTableWord 48 0x7A00000000FD = some (.cmdn 58#6 0#32 0x7E#7) := by decide
/-- Not a frame and not a request: start bits 10, start bits 00 above 44 bits, end bit 0 (R101). -/
theorem test_decode_refuses :
    decode 0x800000000001#48 = .error .badStartBits ∧ decode 0x100000000001#48 = .error .badStartBits ∧
    decode 0x400000000094#48 = .error .badEndBit ∧ decodeTableWord 56 0x01400000000095 = none := by decide

/-! ## Single steps -/

/-- V81. -/
theorem test_nop_status : firstStep 44 0x00000000000 State.status = some 0x000E#14 := by decide
/-- V10, V19. -/
theorem test_crc7upd_values :
    firstStep 44 0x10000007F00 State.val = some 0x70#40 ∧ firstStep 44 0x10000004A95 State.val = some 0x09#40 := by decide
theorem test_crc7upd_status : firstStep 44 0x10000007FFF State.status = some 0x040E#14 := by decide
/-- V51. -/
theorem test_sendcmd_builds_frame :
    firstStep 44 0x208000001AA State.frm = some #v[0x48#8, 0x00#8, 0x00#8, 0x01#8, 0xAA#8, 0x87#8] := by decide +kernel
/-- R151: the last step of SENDCMD completes; from reset its status is `0x080E` (section 2.2 of the vectors). -/
theorem test_sendcmd_last_step :
    (nextOf (exec (.sendcmd 0#6 0#32) (busyAt 0x2#4 .frame 5#10))).map State.status = some 0x080E#14 := by decide
/-- V21: a capture on the very first byte. -/
theorem test_rdresp1_captures_first_byte :
    (nextOf (exec .rdresp1 (hearing 0x3#4 .scan 0#10 [0x05#8, 0x77#8]))).map (fun t => (t.resp, t.respLen, t.ph)) =
      some (#v[0x05#8, 0xFF#8, 0xFF#8, 0xFF#8, 0xFF#8], .short1, .disc) := by decide
/-- V22: an idle byte leaves the status `0x0C0D`. -/
theorem test_rdresp1_skips_idle :
    (nextOf (exec .rdresp1 (hearing 0x3#4 .scan 0#10 [0xFF#8]))).map State.status = some 0x0C0D#14 := by decide
/-- V28: a later byte equal to `0xFF` is captured. -/
theorem test_rdresp5_captures_idle_byte :
    (nextOf (exec .rdresp5 (hearing 0x4#4 .cap 4#10 [0xFF#8]))).map (fun t => (t.respLen, t.ph)) = some (.ext5, .disc) := by
  decide
/-- V26: the discard completes with the five bytes, first received most significant. -/
theorem test_rdresp5_value :
    (nextOf (exec .rdresp5 { hearing 0x4#4 .disc 5#10 [0xFF#8] with
      resp := #v[0x01#8, 0x00#8, 0x00#8, 0x01#8, 0xAA#8] })).map State.val = some 0x01000001AA#40 := by decide
/-- V29a. -/
theorem test_match1_after_reset :
    firstStep 44 0x500000000FF State.status = some 0x140E#14 ∧ firstStep 44 0x50000000000 State.status = some 0x140C#14 := by
  decide
/-- V29a. -/
theorem test_match5_after_reset :
    firstStep 44 0x6FFFFFFFFFF State.status = some 0x180E#14 ∧ firstStep 44 0x6FFFFFFFFFE State.status = some 0x180C#14 := by
  decide
/-- R188, row `S_RESET`: the tenth preamble byte asserts chip-select and builds `CMD0`. -/
theorem test_init_preamble_end :
    (nextOf (exec .init { busyAt 0x7#4 .pre 9#10 with iseq := .sReset })).map (fun t => (t.csn, t.iseq, t.frm)) =
      some (false, .sGoIdle, #v[0x40#8, 0x00#8, 0x00#8, 0x00#8, 0x00#8, 0x95#8]) := by decide +kernel
/-- V31: `CMD41` answered `01` goes back to `S_APP_CMD` and sends `CMD55`. -/
theorem test_init_card_busy :
    (nextOf (exec .init { hearing 0x7#4 .disc 6#10 [0xFF#8] with
      iseq := .sAppOpCond, resp := #v[0x01#8, 0x00#8, 0x00#8, 0x01#8, 0xAA#8] })).map (fun t => (t.iseq, t.ph, t.frm)) =
      some (.sAppCmd, .frame, #v[0x77#8, 0x00#8, 0x00#8, 0x00#8, 0x00#8, 0x65#8]) := by decide +kernel
/-- R202: the third lead-in byte is the token. -/
theorem test_wrblk_sends_token :
    (nextOf (exec (.wrblk 0x200#32) (busyAt 0x8#4 .lead 2#10))).map (fun t => (t.wire, t.ph, t.cnt)) =
      some ([.tx 0xFE#8], .data, 0#10) := by decide
/-- R206: the last payload byte is `WRBUF[511]`. -/
theorem test_wrblk_sends_last_byte :
    (nextOf (exec (.wrblk 0x200#32) { busyAt 0x8#4 .data 511#10 with wrbuf := [(510, 0x01#8), (511, 0x5A#8)] })).map
      (fun t => (t.wire, t.ph)) = some ([.tx 0x5A#8], .wresp) := by decide
/-- R211: the token toggles the selector before any byte is stored. -/
theorem test_rdblk_token_toggles :
    (nextOf (exec (.rdblk 0#32) (hearing 0x9#4 .token 0#10 [0xFE#8]))).map (fun t => (t.sel, t.ph, t.rxA)) =
      some (false, .data, []) := by decide
/-- PR2: payload bytes equal to `0xFF` are stored, in the buffer `SEL` names. -/
theorem test_rdblk_stores_idle_byte :
    (nextOf (exec (.rdblk 0#32) { hearing 0x9#4 .data 0#10 [0xFF#8] with sel := false })).map (fun t => (t.rxA, t.rxB)) =
      some ([(0, 0xFF#8)], []) := by decide
/-- V82, V83 and the codes between: `OK` = 0, `CUR_OP` the code. -/
theorem test_reserved_status :
    firstStep 44 0xA0000000000 State.status = some 0x280C#14 ∧ firstStep 44 0xB0000000000 State.status = some 0x2C0C#14 ∧
    firstStep 44 0xC0000000000 State.status = some 0x300C#14 ∧ firstStep 44 0xD0000000000 State.status = some 0x340C#14 ∧
    firstStep 44 0xE0000000000 State.status = some 0x380C#14 ∧ firstStep 44 0xF123456789A State.status = some 0x3C0C#14 := by
  decide
/-- R117: what each constant frame sends first. -/
theorem test_constant_frames_first_byte :
    firstStep 48 0x400000000095 State.wire = some [.tx 0x40#8] ∧ firstStep 48 0x48000001AA87 State.wire = some [.tx 0x48#8] ∧
    firstStep 48 0x770000000065 State.wire = some [.tx 0x77#8] ∧ firstStep 48 0x694000000077 State.wire = some [.tx 0x69#8] := by
  decide
/-- R117: what each constant frame sends last, and the read that follows inside INIT. -/
theorem test_constant_frames_last_byte :
    [Instr.cmd0, .cmd8, .cmd55, .cmd41].map (fun i =>
      (nextOf (exec i (busyAt 0x7#4 .frame 5#10))).map (fun t => (t.wire, t.ph))) =
      [some ([.tx 0x95#8], .scan), some ([.tx 0x87#8], .scan), some ([.tx 0x65#8], .scan), some ([.tx 0x77#8], .scan)] := by
  decide
/-- V63, V57, V62: a byte in the middle of each of the other frames. -/
theorem test_addressed_frames_bytes :
    (nextOf (exec (.cmd17 0x12345678#32 0x2E#7) (busyAt 0x9#4 .frame 1#10))).map State.wire = some [.tx 0x12#8] ∧
    (nextOf (exec (.cmd24 0x00000200#32 0x21#7) (busyAt 0x8#4 .frame 3#10))).map State.wire = some [.tx 0x02#8] ∧
    (nextOf (exec (.cmdn 63#6 0xFFFFFFFF#32 0x0C#7) (busyAt 0x2#4 .frame 5#10))).map State.wire = some [.tx 0x19#8] := by
  decide
/-- V84: a request while `BUSY` = 1 is dropped. -/
theorem test_busy_request_dropped :
    (nextOf (step { busyAt 0x3#4 .scan 0#10 with host := [.writeReq 0#44] })).map State.status = some 0x0C0D#14 := by decide
/-- V85: reset ends a hang. -/
theorem test_reset_ends_hang :
    (nextOf (step { busyAt 0x3#4 .scan 0#10 with host := [.reset] })).map State.status = some 0x000C#14 := by decide


/-! ## Witnesses: states and operands that meet the hypotheses of each obligation that has some, at the boundary values of each
clause -/

/-- The states of a step table's clauses: all of operation `op` at phase `ph`, the count and the next answer given. -/
def clause (op : BitVec 4) (ph : Phase) (cnt : Nat) (answer : Byte) : State := hearing op ph (BitVec.ofNat 10 cnt) [answer]

/-- Busy in a sound state: INIT in state `q`. -/
def initAt (q : ISeq) (ph : Phase) (cnt : BitVec 10) (first : Byte) : State :=
  { hearing 0x7#4 ph cnt [0xFF#8] with iseq := q, csn := deselected q, resp := #v[first, 0x00#8, 0x00#8, 0x01#8, 0xAA#8] }

/-- A sound state in phase `FRAME` of INIT's `CMD55`. -/
def resending (answers : List Byte) : State :=
  { initAt .sAppCmd .frame 0#10 0x01#8 with frm := buildFrame Config.cmd55 0#32, respLen := .ext5, rx := answers }

theorem witness_ResetSetsEveryRegister :
    { busyAt 0x3#4 .scan 0#10 with host := [.reset] }.host = .reset :: [] := by decide

theorem witness_StatusShowsTheRegisters :
    (hosted [.writeWrbuf 511 0x5A#8]).host = .writeWrbuf 511 0x5A#8 :: [] ∧
    { busyAt 0x3#4 .scan 0#10 with host := [.writeReq 0#44] }.host = .writeReq 0#44 :: [] ∧
    { busyAt 0x3#4 .scan 0#10 with host := [.writeReq 0#44] }.busy = true := by decide

theorem witness_HostReadsRespAndWindows :
    Memory.read? [(0, 0x11#8), (511, 0x5A#8)] (0 : Fin 512).val = some 0x11#8 ∧
    Memory.read? [(0, 0x11#8), (511, 0x5A#8)] (511 : Fin 512).val = some 0x5A#8 := by decide

theorem witness_RequestAcceptedWhenIdleDroppedWhenBusy :
    (hosted [.writeReq 0#44]).host = .writeReq 0#44 :: [] ∧ (hosted [.writeReq 0#44]).busy = false ∧
    { busyAt 0x3#4 .scan 0#10 with host := [.writeReq 0#44] }.busy = true := by decide

theorem witness_StepRunsDecodedInstruction :
    (resending []).ph = .frame ∧ (busyAt 0x3#4 .scan 0#10).ph ≠ .frame ∧
    (resending []).busy = true ∧ decode (fetchWord (resending [])) = .ok .cmd55 ∧ (resending []).host = [] ∧
    (busyAt 0x3#4 .scan 0#10).busy = true ∧ decode (fetchWord (busyAt 0x3#4 .scan 0#10)) = .ok .rdresp1 ∧
    { resending [] with host := [.pass] }.host = .pass :: [] ∧
    (hosted [.writeReq 0x30000000000#44]).busy = false ∧ decode (0#4 ++ 0x30000000000#44) = .ok .rdresp1 := by decide +kernel

theorem witness_LoadedWordIsExecutedNext :
    decodeTableWord 44 0x80000000200 = some (.wrblk 0x200#32) ∧ (Instr.wrblk 0x200#32).isFrame = false ∧
    decodeTableWord 48 0x400000000095 = some .cmd0 ∧ Instr.cmd0.isFrame = true := by decide

theorem witness_IdleCoreChangesNothing :
    State.reset.busy = false ∧ State.reset.host = [] ∧ (hosted [.pass]).host = .pass :: [] := by decide

theorem witness_HostWriteChangesOneWrbufByte :
    (hosted [.writeWrbuf 0 0x5A#8]).host = .writeWrbuf 0 0x5A#8 :: [] ∧
    (hosted [.writeWrbuf 511 0x5A#8]).host = .writeWrbuf 511 0x5A#8 :: [] ∧ Memory.wf State.reset.wrbuf = true := by decide

theorem witness_IgnoredOperandBitsChangeNothing :
    (0xFFFFFF8000#40).extractLsb' 0 15 = (0x0#40).extractLsb' 0 15 ∧
    (0xC000000000#40).extractLsb' 0 38 = (0x0#40).extractLsb' 0 38 ∧
    (0xFFFFFFFF00#40).extractLsb' 0 8 = (0x0#40).extractLsb' 0 8 ∧
    (0xFF00000000#40).extractLsb' 0 32 = (0x0#40).extractLsb' 0 32 ∧
    (nextOf (exec (.wrblk 0#32) (busyAt 0x8#4 .idle 0#10))).isSome = true := by decide

theorem witness_DecodeOfEncodeIsTheInstruction :
    (Instr.crc7upd 0x7F#7 0xFF#8).wf = true ∧ (Instr.cmd17 0xFFFFFFFF#32 0x3F#7).wf = true ∧ Instr.reservedF.wf = true := by
  decide +kernel

theorem witness_EncodeOfDecodedFrameIsTheWord :
    (0x7FFFFFFFFF19#48).extractLsb' 46 2 = 0b01#2 ∧ (0x7FFFFFFFFF19#48).extractLsb' 0 1 = 1#1 := by decide

theorem witness_SentFramesKeepTheirInvariants :
    (∀ c ∈ [0#10, 5#10], inv { resending [] with cnt := c } = true) ∧ (resending []).busy = true ∧
    (resending []).ph = .frame := by decide +kernel

theorem witness_NopCompletesAtOnce :
    (hosted [.writeReq (0x0#4 ++ 0xFFFFFFFFFF#40)]).host = .writeReq (0x0#4 ++ 0xFFFFFFFFFF#40) :: [] ∧
    (hosted [.writeReq (0x0#4 ++ 0xFFFFFFFFFF#40)]).busy = false ∧
    (hosted [.writeReq (0x0#4 ++ 0xFFFFFFFFFF#40)]).ph = .idle := by decide

theorem witness_ReservedCodesCompleteWithFailure :
    ∀ op ∈ [10#4, 15#4], 10 ≤ op.toNat ∧ (hosted [.writeReq (op ++ 0#40)]).host = .writeReq (op ++ 0#40) :: [] ∧
      (hosted [.writeReq (op ++ 0#40)]).busy = false ∧ (hosted [.writeReq (op ++ 0#40)]).ph = .idle := by decide

theorem witness_TransportPrimitives :
    (clause 0x3#4 .scan 0 0x01#8).rx = 0x01#8 :: [] ∧ State.reset.rx = [] := by decide

theorem witness_CommandFramesTransmitTheirBytes :
    Instr.cmd0.isFrame = true ∧ (Instr.cmdn 63#6 0#32 0#7).isFrame = true ∧
    (∀ op ∈ [0x2#4, 0x7#4, 0x8#4, 0x9#4], (clause op .frame 0 0#8).ph = .frame ∧ (clause op .frame 0 0#8).cnt.toNat < 5 ∧
      (clause op .frame 4 0#8).cnt.toNat < 5 ∧ (clause op .frame 5 0#8).cnt = 5#10 ∧ (clause op .frame 5 0#8).curOp = op) ∧
    (clause 0x2#4 .idle 0 0#8).ph ≠ .frame := by decide

theorem witness_SendCommandStepTable :
    (clause 0x2#4 .idle 0 0#8).ph = .idle ∧
    (nextOf (exec .init (initAt .sReset .pre 9#10 0xFF#8))).map State.ph = some .frame ∧
    (nextOf (exec .init (initAt .sAppCmd .disc 6#10 0x05#8))).map State.ph = some .frame ∧
    ∀ op ∈ [0x2#4, 0x7#4, 0x8#4, 0x9#4], ∀ c ∈ [0, 4, 5],
      let s := { resending [] with curOp := op, cnt := BitVec.ofNat 10 c }
      s.host = [] ∧ s.busy = true ∧ s.ph = .frame ∧ s.frm[0].extractLsb' 6 2 = 0b01#2 ∧ s.frm[5].extractLsb' 0 1 = 1#1 ∧
      (s.cnt.toNat < 5 ∨ s.cnt = 5#10) ∧ s.curOp = op := by decide +kernel

theorem witness_ReadShortStepTable :
    (clause 0x3#4 .idle 0 0#8).ph = .idle ∧ (clause 0x3#4 .disc 0 0#8).ph = .disc ∧
    (∀ q ∈ [ISeq.sGoIdle, .sAppCmd, .sAppOpCond],
      (initAt q .scan 6#10 0x01#8).iseq = q ∧ (initAt q .scan 6#10 0x01#8).ph = .scan ∧
      rxAnswer (initAt q .scan 6#10 0x01#8) = 0xFF#8) ∧
    (∀ q ∈ [ISeq.sGoIdle, .sAppCmd, .sAppOpCond, .sReady], ∀ v ∈ [0x00#8, 0x01#8, 0x05#8],
      (initAt q .disc 6#10 v).iseq = q ∧ (initAt q .disc 6#10 v).ph = .disc ∧ (initAt q .disc 6#10 v).resp[0] = v) ∧
    (∀ b ∈ [0x00#8, 0xFE#8], rxAnswer (clause 0x3#4 .scan 0 b) ≠ 0xFF#8) := by decide

theorem witness_ReadExtendedStepTable :
    (clause 0x4#4 .idle 0 0#8).ph = .idle ∧ (initAt .sCheckIf .disc 5#10 0x01#8).iseq = .sCheckIf ∧
    (initAt .sCheckIf .disc 5#10 0x01#8).resp = #v[0x01#8, 0x00#8, 0x00#8, 0x01#8, 0xAA#8] ∧
    (initAt .sCheckIf .disc 5#10 0x05#8).resp ≠ #v[0x01#8, 0x00#8, 0x00#8, 0x01#8, 0xAA#8] ∧
    rxAnswer (clause 0x4#4 .scan 0 0xFF#8) = 0xFF#8 ∧ rxAnswer (clause 0x4#4 .scan 0 0x01#8) ≠ 0xFF#8 ∧
    (∀ c : Fin 5, c = 1 ∨ c = 3 → 1 ≤ c.val ∧ c.val ≤ 3 ∧ (clause 0x4#4 .cap c.val 0xFF#8).cnt.toNat = c.val) ∧
    (clause 0x4#4 .cap 4 0xFF#8).cnt = 4#10 := by decide

theorem witness_InitStepTable :
    (∀ c ∈ [0, 8], (initAt .sReset .pre (BitVec.ofNat 10 c) 0xFF#8).cnt.toNat < 9) ∧
    (initAt .sReset .pre 9#10 0xFF#8).cnt = 9#10 ∧ (initAt .sReset .pre 9#10 0xFF#8).iseq = .sReset ∧
    (∀ c ∈ [0, 4], (initAt .sGoIdle .frame (BitVec.ofNat 10 c) 0xFF#8).cnt.toNat < 5) ∧
    (initAt .sGoIdle .frame 5#10 0xFF#8).cnt = 5#10 ∧
    (∀ q ∈ [ISeq.sGoIdle, .sCheckIf, .sAppCmd, .sAppOpCond], ∀ p ∈ [Phase.scan, .cap, .disc], ∀ v ∈ [0x00#8, 0x01#8, 0x05#8],
      (initAt q p 6#10 v).ph = p ∧ (initAt q p 6#10 v).iseq = q ∧ (initAt q p 6#10 v).resp[0] = v) := by decide

theorem witness_InitHasNoOtherTransition :
    (∀ c ∈ [0#10, 9#10], (nextOf (exec .init (initAt .sReset .pre c 0xFF#8))).isSome = true) ∧
    (nextOf (exec .init (busyAt 0x7#4 .idle 0#10))).isSome = true ∧
    (∀ q ∈ [ISeq.sGoIdle, .sCheckIf, .sAppCmd, .sAppOpCond], ∀ v ∈ [0x00#8, 0x01#8, 0x05#8],
      (nextOf (exec .init (initAt q .disc 6#10 v))).isSome = true) ∧
    (nextOf (exec .init (initAt .sAppOpCond .disc 6#10 0x00#8))).map State.busy = some false ∧
    (initAt .sAppOpCond .disc 6#10 0x00#8).busy = true := by decide +kernel

theorem witness_WrblkStepTable :
    (∀ c ∈ [0, 4], (clause 0x8#4 .frame c 0#8).cnt.toNat < 5) ∧ (clause 0x8#4 .frame 5 0#8).cnt = 5#10 ∧
    rxAnswer (clause 0x8#4 .scan 0 0xFF#8) = 0xFF#8 ∧ rxAnswer (clause 0x8#4 .scan 0 0x05#8) ≠ 0xFF#8 ∧
    (clause 0x8#4 .disc 0 0#8).resp[0] ≠ 0x00#8 ∧ (initAt .sReady .disc 0#10 0x00#8).resp[0] = 0x00#8 ∧
    (∀ c ∈ [0, 1, 2], (clause 0x8#4 .lead c 0#8).cnt = BitVec.ofNat 10 c) ∧
    (∀ c : Fin 512, c = 0 ∨ c = 510 → c.val ≤ 510 ∧ (clause 0x8#4 .data c.val 0#8).cnt.toNat = c.val) ∧
    (clause 0x8#4 .data 511 0#8).cnt = 511#10 ∧ (clause 0x8#4 .data 511 0#8).ph = .data := by decide +kernel

/-- Both answers to the last step of WRBLK, whatever `WR_ACCEPT` is. -/
theorem witness_WrblkStepTable_response :
    rxAnswer (clause 0x8#4 .wresp 512 Config.wrAccept) = Config.wrAccept ∧
    rxAnswer (clause 0x8#4 .wresp 512 (Config.wrAccept ^^^ 1#8)) ≠ Config.wrAccept :=
  ⟨rfl, (by decide : ∀ b : Byte, b ^^^ 1#8 ≠ b) _⟩

theorem witness_RdblkStepTable :
    (∀ c ∈ [0, 4], (clause 0x9#4 .frame c 0#8).cnt.toNat < 5) ∧ (clause 0x9#4 .frame 5 0#8).cnt = 5#10 ∧
    (clause 0x9#4 .disc 0 0#8).resp[0] ≠ 0x00#8 ∧ (initAt .sReady .disc 0#10 0x00#8).resp[0] = 0x00#8 ∧
    (∀ b ∈ [0xFF#8, 0xFE#8, 0x00#8], rxAnswer (clause 0x9#4 .token 0 b) = b ∧ rxAnswer (clause 0x9#4 .scan 0 b) = b) ∧
    (∀ c : Fin 512, c = 0 ∨ c = 510 ∨ c = 511 → (clause 0x9#4 .data c.val 0#8).cnt.toNat = c.val) ∧
    (∀ c ∈ [0, 1, 2], (clause 0x9#4 .trail c 0#8).cnt = BitVec.ofNat 10 c) := by decide +kernel

/-- The premise `exec i s = .next t` of the frame statements, for steps that fall under their clauses: a store into each buffer, the
token, the preamble's end, a completion, captures, and an entry to phase `FRAME`. -/
theorem witness_frames :
    (∀ sel ∈ [false, true], ∀ c ∈ [0, 511],
      (nextOf (exec (.rdblk 0#32) { clause 0x9#4 .data c 0x5A#8 with sel := sel })).isSome = true) ∧
    (nextOf (exec (.rdblk 0#32) (clause 0x9#4 .token 0 0xFE#8))).map State.sel = some false ∧
    (nextOf (exec (.rdblk 0#32) (clause 0x9#4 .token 0 0xFF#8))).map State.sel = some true ∧
    (nextOf (exec .init (initAt .sReset .pre 9#10 0xFF#8))).map State.csn = some false ∧
    (nextOf (exec .rdresp1 (clause 0x3#4 .disc 0 0x00#8))).map State.ph = some .idle ∧
    (nextOf (exec .rdresp1 (clause 0x3#4 .scan 0 0x00#8))).map State.ph = some .disc ∧
    (nextOf (exec .rdresp5 (clause 0x4#4 .cap 1 0x00#8))).map State.ph = some .cap ∧
    (nextOf (exec (.sendcmd 0#6 0#32) (clause 0x2#4 .idle 0 0x00#8))).map State.ph = some .frame ∧
    (nextOf (exec .nop State.reset)).isSome = true := by decide +kernel

/-- A step in each sending phase goes on. -/
theorem witness_SendingStepsIgnoreTheAnswer :
    (nextOf (exec (.wrblk 0#32) (clause 0x8#4 .idle 0 0#8))).isSome = true ∧
    (nextOf (exec .init (initAt .sReset .pre 0#10 0xFF#8))).isSome = true ∧
    (nextOf (exec .cmd0 (clause 0x7#4 .frame 0 0#8))).isSome = true ∧
    (nextOf (exec (.wrblk 0#32) (clause 0x8#4 .lead 2 0#8))).isSome = true ∧
    (nextOf (exec (.wrblk 0#32) { clause 0x8#4 .data 0 0#8 with wrbuf := [(0, 0#8)] })).isSome = true := by decide +kernel

/-- Sound states a step leads on from: idle, in a hang, in phase `FRAME`, and with the host acting. -/
theorem witness_invariant_steps :
    (inv (clause 0x3#4 .scan 0 0xFF#8) = true ∧ (nextOf (step (clause 0x3#4 .scan 0 0xFF#8))).isSome = true) ∧
    (inv (resending []) = true ∧ (nextOf (step (resending []))).isSome = true) ∧
    (inv (hosted [.writeReq 0x70000000000#44]) = true ∧
      (nextOf (step (hosted [.writeReq 0x70000000000#44]))).isSome = true) ∧
    streamCounted State.reset = true ∧ (nextOf (step State.reset)).isSome = true := by decide +kernel

theorem witness_DeadTemporariesNeverMatter :
    inv (hosted [.writeReq 0x70000000000#44]) = true ∧ (hosted [.writeReq 0x70000000000#44]).busy = false := by decide +kernel

/-- For `k` idle bytes, 0 and 2, a request of operation `op` and the answers `tail`. -/
def requested (op : BitVec 4) (k : Nat) (tail : List Byte) : State :=
  { hosted [.writeReq (op ++ 0x0000000200#40)] with rx := List.replicate k 0xFF#8 ++ tail }

theorem witness_Rdresp1Run : ∀ k ∈ [0, 2],
    let s := requested 0x3#4 k [0x05#8, 0x77#8]
    s.busy = false ∧ s.ph = .idle ∧ s.host = [.writeReq (0x3#4 ++ 0x0000000200#40)] ∧
    s.rx = List.replicate k 0xFF#8 ++ 0x05#8 :: 0x77#8 :: [] ∧ 0x05#8 ≠ 0xFF#8 := by decide

theorem witness_Rdresp5Run : ∀ k ∈ [0, 2],
    let s := requested 0x4#4 k [0x01#8, 0xFF#8, 0x00#8, 0x01#8, 0xAA#8, 0xFF#8]
    s.busy = false ∧ s.ph = .idle ∧ s.host = [.writeReq (0x4#4 ++ 0x0000000200#40)] ∧
    s.rx = List.replicate k 0xFF#8 ++ 0x01#8 :: 0xFF#8 :: 0x00#8 :: 0x01#8 :: 0xAA#8 :: 0xFF#8 :: [] := by decide

theorem witness_SendcmdRun :
    let s := requested 0x2#4 0 []
    s.busy = false ∧ s.ph = .idle ∧ s.host = [.writeReq (0x2#4 ++ 0x0000000200#40)] := by decide

theorem witness_InitShortestRun :
    let s := requested 0x7#4 1 ([0x01#8, 0x00#8] ++ [0x01#8, 0x00#8, 0x00#8, 0x01#8, 0xAA#8, 0x11#8] ++
      [0xFF#8, 0x01#8, 0x22#8] ++ [0x00#8, 0x33#8])
    s.busy = false ∧ s.ph = .idle ∧ s.host = [.writeReq (0x7#4 ++ 0x0000000200#40)] ∧
    s.rx = List.replicate 1 0xFF#8 ++ 0x01#8 :: 0x00#8 ::
      (List.replicate 0 0xFF#8 ++ 0x01#8 :: 0x00#8 :: 0x00#8 :: 0x01#8 :: 0xAA#8 :: 0x11#8 ::
        (List.replicate 1 0xFF#8 ++ 0x01#8 :: 0x22#8 :: (List.replicate 0 0xFF#8 ++ 0x00#8 :: 0x33#8 :: []))) := by decide

theorem witness_WrblkRun : ∀ k ∈ [0, 2],
    let s := requested 0x8#4 k [0x00#8, 0x11#8, 0x05#8]
    s.busy = false ∧ s.ph = .idle ∧ s.host = [.writeReq (0x8#4 ++ 0x0000000200#40)] ∧
    s.rx = List.replicate k 0xFF#8 ++ 0x00#8 :: 0x11#8 :: 0x05#8 :: [] := by decide

theorem witness_WrblkRejectedRun : ∀ k ∈ [0, 2],
    let s := requested 0x8#4 k [0x01#8, 0x11#8]
    s.busy = false ∧ s.ph = .idle ∧ s.host = [.writeReq (0x8#4 ++ 0x0000000200#40)] ∧
    s.rx = List.replicate k 0xFF#8 ++ 0x01#8 :: 0x11#8 :: [] ∧ 0x01#8 ≠ 0xFF#8 ∧ 0x01#8 ≠ 0x00#8 := by decide

theorem witness_RdblkRun :
    let payload : List Byte := List.replicate 512 0xFE#8
    let s := requested 0x9#4 1 (0x00#8 :: 0x11#8 :: (List.replicate 1 0xFF#8 ++ 0xFE#8 :: (payload ++ [0x01#8, 0x02#8, 0x03#8])))
    s.busy = false ∧ s.ph = .idle ∧ s.host = [.writeReq (0x9#4 ++ 0x0000000200#40)] ∧ payload.length = 512 ∧
    s.rx = List.replicate 1 0xFF#8 ++ 0x00#8 :: 0x11#8 :: (List.replicate 1 0xFF#8 ++ 0xFE#8 ::
      (payload ++ 0x01#8 :: 0x02#8 :: 0x03#8 :: [])) :=
  ⟨rfl, rfl, rfl, List.length_replicate .., rfl⟩

theorem witness_RdblkFailedRuns :
    (requested 0x9#4 0 [0x05#8, 0x11#8]).rx = List.replicate 0 0xFF#8 ++ 0x05#8 :: 0x11#8 :: [] ∧
    (requested 0x9#4 2 [0x00#8, 0x11#8, 0xFF#8, 0x08#8]).rx =
      List.replicate 2 0xFF#8 ++ 0x00#8 :: 0x11#8 :: (List.replicate 1 0xFF#8 ++ 0x08#8 :: []) ∧
    (requested 0x9#4 0 []).busy = false ∧ (requested 0x9#4 0 []).ph = .idle ∧
    (requested 0x9#4 0 []).host = [.writeReq (0x9#4 ++ 0x0000000200#40)] := by decide

theorem witness_IdleSkipHangs :
    (∀ n ∈ [0, 3], let s := { busyAt 0x3#4 .scan 0#10 with rx := List.replicate n 0xFF#8 ++ [] };
      inv s = true ∧ s.busy = true ∧ s.host = [] ∧ s.ph = .scan) ∧
    (let s := { busyAt 0x9#4 .token 6#10 with
        rx := List.replicate 3 0xFF#8 ++ [0xFE#8], respLen := .short1, resp := State.reset.resp.set 0 0x00#8 };
      inv s = true ∧ s.busy = true ∧ s.host = [] ∧ s.ph = .token) := by decide +kernel

theorem witness_InitRetryHangs :
    let answers : List (Byte × Byte) := [(0x00#8, 0xFF#8), (0x05#8, 0x12#8)]
    let s := resending ([0x00#8, 0xFF#8, 0x05#8, 0x12#8])
    inv s = true ∧ s.busy = true ∧ s.host = [] ∧ s.curOp = 0x7#4 ∧ s.iseq = .sAppCmd ∧ s.ph = .frame ∧ s.cnt = 0#10 ∧
    (∀ p ∈ answers, p.1 ≠ 0xFF#8 ∧ p.1 ≠ 0x01#8) ∧ s.rx = answers.flatMap (fun p => [p.1, p.2]) ++ [] :=
  ⟨by decide +kernel, rfl, rfl, rfl, rfl, rfl, rfl, by simp, rfl⟩

theorem witness_CountedPhasesEnd :
    ∀ s ∈ [resending [], { initAt .sReset .pre 0#10 0xFF#8 with respLen := .none0, resp := State.reset.resp },
        { initAt .sReady .data 0#10 0x00#8 with curOp := 0x9#4, respLen := .short1 },
        { initAt .sReady .wresp 512#10 0x00#8 with curOp := 0x8#4, respLen := .short1 }],
      inv s = true ∧ s.busy = true ∧ s.host = [] ∧ s.ph ≠ .scan ∧ s.ph ≠ .token := by decide +kernel

end Sys2Proof.Tests
end

section
/-! PROOFS of the family 10_state.md: what the host reads in `STATUS` (R35), the request register (R34) and the dead temporaries
`OPD`, `FRM`, `TOK`, `CNT` (R44). -/

namespace Sys2Proof.Machine

open Sys2Proof.Safety

/-! ## The host's moves -/

/-- A request to a busy core only leaves the host's list of moves. -/
theorem step_request_busy (s : State) (w : ReqWord) (rest : List HostMove) (h : s.host = .writeReq w :: rest)
    (hb : s.busy = true) : step s = .next { s with host := rest } := by
  rw [step_cons s _ rest h]
  simp [hostStep, writeReq, hb]

theorem step_writeWrbuf (s : State) (i : Fin 512) (v : Byte) (rest : List HostMove)
    (h : s.host = .writeWrbuf i v :: rest) : step s = .next (hostWriteWrbuf i v { s with host := rest }) :=
  step_cons s _ rest h

/-- Settles O4: an idle core accepts the request by its two fields, a busy core drops it. -/
theorem requestAcceptedWhenIdleDroppedWhenBusy : Obligations.RequestAcceptedWhenIdleDroppedWhenBusy := by
  unfold Obligations.RequestAcceptedWhenIdleDroppedWhenBusy
  intro s w rest h
  constructor
  · intro hb
    rw [step_cons s _ rest h]
    simp [hostStep, writeReq, hb, accept, reqOp, reqOperand]
  · exact step_request_busy s w rest h

/-! ## STATUS -/

/-- Each register at its bits of `STATUS` (10_state.md R35). -/
theorem status_fields (s : State) :
    s.status.extractLsb' 0 1 = BitVec.ofBool s.busy ∧ s.status.extractLsb' 1 1 = BitVec.ofBool s.ok ∧
    s.status.extractLsb' 2 1 = BitVec.ofBool s.sel ∧ s.status.extractLsb' 3 1 = BitVec.ofBool s.csn ∧
    s.status.extractLsb' 4 3 = s.respLen.code ∧ s.status.extractLsb' 7 3 = s.iseq.code ∧
    s.status.extractLsb' 10 4 = s.curOp := by
  unfold State.status
  simp (disch := omega) only [BitVec.extractLsb'_append_eq_of_add_le, BitVec.extractLsb'_append_eq_of_le, Nat.reduceSub,
    BitVec.extractLsb'_eq_self, and_self]

/-- Settles O2: the fields by `status_fields`; a host move that changes at most `WRBUF` changes no field. -/
theorem statusShowsTheRegisters : Obligations.StatusShowsTheRegisters := by
  unfold Obligations.StatusShowsTheRegisters
  refine ⟨fun s => ?_, by decide, ?_⟩
  · obtain ⟨hbusy, hok, hsel, hcsn, hlen, hseq, hop⟩ := status_fields s
    refine ⟨hbusy, hok, hsel, hcsn, hlen.trans ?_, hseq.trans ?_, hop⟩
    · cases s.respLen <;> rfl
    · cases s.iseq <;> rfl
  · rintro s m rest h (⟨i, v, rfl⟩ | ⟨⟨w, rfl⟩, hb⟩)
    · exact ⟨_, step_writeWrbuf s i v rest h, rfl⟩
    · exact ⟨_, step_request_busy s w rest h hb, rfl⟩

/-! ## The dead temporaries (10_state.md R44) -/

/-- The phases whose steps read `CNT` (10_state.md R39; `WRESP` counts but makes one exchange whatever `CNT` is). -/
def readsCnt : Phase → Bool
  | .pre | .frame | .cap | .lead | .data | .trail => true
  | .idle | .scan | .disc | .wresp | .token => false

/-- `s` with other values in the four temporaries. -/
def State.withTemporaries (s : State) (opd : BitVec 40) (frm : Vector Byte 6) (tok : Byte) (cnt : BitVec 10) : State :=
  { s with opd := opd, frm := frm, tok := tok, cnt := cnt }

/-- `s'` is `s` but for `OPD`, `FRM`, `TOK` and `CNT`, and holds the same in those of the four that are live: `OPD` while an
operation is in progress, `FRM` in phase `FRAME`, `CNT` in a phase that reads it. (`TOK` is never read.) -/
structure AgreesOnLive (s s' : State) : Prop where
  same : s' = s.withTemporaries s'.opd s'.frm s'.tok s'.cnt
  opd : s.busy = true → s'.opd = s.opd
  frm : s.ph = .frame → s'.frm = s.frm
  cnt : readsCnt s.ph = true → s'.cnt = s.cnt

namespace AgreesOnLive

variable {s s' : State}

theorem busy_eq (h : AgreesOnLive s s') : s'.busy = s.busy := by rw [h.same]; rfl
theorem curOp_eq (h : AgreesOnLive s s') : s'.curOp = s.curOp := by rw [h.same]; rfl
theorem ph_eq (h : AgreesOnLive s s') : s'.ph = s.ph := by rw [h.same]; rfl
theorem host_eq (h : AgreesOnLive s s') : s'.host = s.host := by rw [h.same]; rfl

/-- While `BUSY` = 1 both cores run the same word. -/
theorem fetchWord_eq (h : AgreesOnLive s s') (hb : s.busy = true) : fetchWord s' = fetchWord s := by
  by_cases hp : s.ph = .frame
  · simp [fetchWord, h.ph_eq, hp, h.frm hp]
  · simp [fetchWord, h.ph_eq, hp, h.curOp_eq, h.opd hb]

end AgreesOnLive

/-- No step table reads a dead temporary: a row from `s` is a row from every state that agrees with `s`. -/
theorem Row.agrees {i : Instr} {s t s' : State} (h : Row i s t) (ha : AgreesOnLive s s') :
    ∃ t', Row i s' t' ∧ AgreesOnLive t t' := by
  obtain ⟨same, hopd, hfrm, hcnt⟩ := ha
  generalize s'.opd = opd at *
  generalize s'.frm = frm at *
  generalize s'.tok = tok at *
  generalize s'.cnt = cnt at *
  subst same
  cases h
  case done hi => exact ⟨_, .done i _ hi, by cases i <;> rfl, nofun, nofun, nofun⟩
  case enterSend hp => exact ⟨_, .enterSend _ _ _ hp, rfl, hopd, fun _ => rfl, fun _ => rfl⟩
  case enterWrite hp => exact ⟨_, .enterWrite _ _ hp, rfl, hopd, fun _ => rfl, fun _ => rfl⟩
  case enterRead hp => exact ⟨_, .enterRead _ _ hp, rfl, hopd, fun _ => rfl, fun _ => rfl⟩
  case enterScan hi hp => exact ⟨_, .enterScan i _ hi hp, rfl, hopd, nofun, nofun⟩
  case enterInit hp => exact ⟨_, .enterInit _ hp, rfl, hopd, nofun, fun _ => rfl⟩
  case frameByte hi hp hc =>
    obtain rfl := hcnt (hp ▸ rfl); obtain rfl := hfrm hp
    exact ⟨_, .frameByte i (s.withTemporaries opd s.frm tok s.cnt) hi hp hc, rfl, hopd, fun _ => rfl, fun _ => rfl⟩
  case frameDone hp hc hi =>
    obtain rfl := hcnt (hp ▸ rfl); obtain rfl := hfrm hp
    exact ⟨_, .frameDone i _ hi hp hc, rfl, nofun, nofun, nofun⟩
  case frameScan hp hc hi =>
    obtain rfl := hcnt (hp ▸ rfl); obtain rfl := hfrm hp
    exact ⟨_, .frameScan i _ hi hp hc, rfl, hopd, fun _ => rfl, fun _ => rfl⟩
  case preByte hp hq hc =>
    obtain rfl := hcnt (hp ▸ rfl)
    exact ⟨_, .preByte _ hp hq hc, rfl, hopd, by simp [hp], fun _ => rfl⟩
  case preLast hp hq hc =>
    obtain rfl := hcnt (hp ▸ rfl)
    exact ⟨_, .preLast _ hp hq hc, rfl, hopd, fun _ => rfl, fun _ => rfl⟩
  case scanIdle hp hx hi => exact ⟨_, .scanIdle i _ hi hp hx, rfl, hopd, nofun, nofun⟩
  case scanShortHit hp hx hi => exact ⟨_, .scanShortHit i _ hi hp hx, rfl, hopd, nofun, nofun⟩
  case scanExtHit hp hx hi => exact ⟨_, .scanExtHit i _ hi hp hx, rfl, hopd, nofun, fun _ => rfl⟩
  case capByte hp h1 h3 hi =>
    obtain rfl := hcnt (hp ▸ rfl)
    exact ⟨_, .capByte i _ hi hp h1 h3, rfl, hopd, by simp [hp], fun _ => rfl⟩
  case capLast hp hc hi =>
    obtain rfl := hcnt (hp ▸ rfl)
    exact ⟨_, .capLast i _ hi hp hc, rfl, hopd, nofun, nofun⟩
  case shortDone hp => exact ⟨_, .shortDone _ hp, rfl, nofun, nofun, nofun⟩
  case extendedDone hp => exact ⟨_, .extendedDone _ hp, rfl, nofun, nofun, nofun⟩
  case initFrame hp hq => exact ⟨_, .initFrame _ _ _ _ hp hq, rfl, hopd, fun _ => rfl, fun _ => rfl⟩
  case initReady hp hq hr => exact ⟨_, .initReady _ hp hq hr, rfl, nofun, nofun, nofun⟩
  case commandRejected hi hp hr => exact ⟨_, .commandRejected i _ hi hp hr, rfl, nofun, nofun, nofun⟩
  case writeAccepted hp hr => exact ⟨_, .writeAccepted _ _ hp hr, rfl, hopd, nofun, fun _ => rfl⟩
  case leadIdle hp hc =>
    obtain rfl := hcnt (hp ▸ rfl)
    exact ⟨_, .leadIdle _ _ hp hc, rfl, hopd, by simp [hp], fun _ => rfl⟩
  case leadToken hp hc =>
    obtain rfl := hcnt (hp ▸ rfl)
    exact ⟨_, .leadToken _ _ hp hc, rfl, hopd, nofun, fun _ => rfl⟩
  case writeByte hp hc =>
    obtain rfl := hcnt (hp ▸ rfl)
    exact ⟨_, .writeByte _ _ hp hc, rfl, hopd, by simp [hp], fun _ => rfl⟩
  case writeLast hp hc =>
    obtain rfl := hcnt (hp ▸ rfl)
    exact ⟨_, .writeLast _ _ hp hc, rfl, hopd, nofun, fun _ => rfl⟩
  case writeEnd hp => exact ⟨_, .writeEnd _ _ hp, rfl, nofun, nofun, nofun⟩
  case readAccepted hp hr => exact ⟨_, .readAccepted _ _ hp hr, rfl, hopd, nofun, nofun⟩
  case tokenIdle hp hx => exact ⟨_, .tokenIdle _ _ hp hx, rfl, hopd, nofun, nofun⟩
  case tokenHit hp hx => exact ⟨_, .tokenHit _ _ hp hx, rfl, hopd, nofun, fun _ => rfl⟩
  case tokenBad hp hx hn => exact ⟨_, .tokenBad _ _ hp hx hn, rfl, nofun, nofun, nofun⟩
  case readByte hp hc =>
    obtain rfl := hcnt (hp ▸ rfl)
    exact ⟨_, .readByte _ _ hp hc, rfl, hopd, by simp [hp], fun _ => rfl⟩
  case readLast hp hc =>
    obtain rfl := hcnt (hp ▸ rfl)
    exact ⟨_, .readLast _ _ hp hc, rfl, hopd, nofun, fun _ => rfl⟩
  case trailByte hp hc =>
    obtain rfl := hcnt (hp ▸ rfl)
    exact ⟨_, .trailByte _ _ hp hc, rfl, hopd, by simp [hp], fun _ => rfl⟩
  case trailLast hp hc =>
    obtain rfl := hcnt (hp ▸ rfl)
    exact ⟨_, .trailLast _ _ hp hc, rfl, nofun, nofun, nofun⟩

theorem coreStep_agrees {s s' t : State} (ha : AgreesOnLive s s') (h : coreStep s = .next t) :
    ∃ t', coreStep s' = .next t' ∧ AgreesOnLive t t' := by
  cases hb : s.busy with
  | false =>
    rw [coreStep_idle s hb, Host.Outcome.next.injEq] at h
    exact ⟨s', coreStep_idle s' (ha.busy_eq.trans hb), h ▸ ha⟩
  | true =>
    simp only [coreStep, hb, ha.busy_eq, if_true, ha.fetchWord_eq hb] at h ⊢
    cases hd : decode (fetchWord s) with
    | error e => simp [hd] at h
    | ok i =>
      simp only [hd] at h ⊢
      obtain ⟨t', hr, ht⟩ := (exec_row h).agrees ha
      exact ⟨t', hr.exec, ht⟩

theorem hostStep_agrees {m : HostMove} {s s' t : State} (ha : AgreesOnLive s s') (h : hostStep m s = .next t) :
    ∃ t', hostStep m s' = .next t' ∧ AgreesOnLive t t' := by
  cases m with
  | pass => exact coreStep_agrees ha h
  | writeReq w =>
    cases hb : s.busy with
    | true =>
      simp only [hostStep, writeReq, hb, ha.busy_eq, if_true, Host.Outcome.next.injEq] at h ⊢
      exact ⟨s', rfl, h ▸ ha⟩
    | false =>
      simp only [hostStep, writeReq, hb, ha.busy_eq, Bool.false_eq_true, if_false] at h ⊢
      have hacc : AgreesOnLive (accept (reqOp w) (reqOperand w) s) (accept (reqOp w) (reqOperand w) s') :=
        ⟨by rw [ha.same]; rfl, fun _ => rfl, ha.frm, ha.cnt⟩
      obtain ⟨t', hr, ht⟩ := (exec_row h).agrees hacc
      exact ⟨t', hr.exec, ht⟩
  | writeWrbuf i v =>
    cases h
    exact ⟨_, rfl, by rw [ha.same]; rfl, ha.opd, ha.frm, ha.cnt⟩
  | reset =>
    cases h
    exact ⟨_, rfl, by rw [ha.same]; rfl, nofun, nofun, nofun⟩

/-- A step keeps the agreement, whatever the host does in it. -/
theorem step_agrees {s s' t : State} (ha : AgreesOnLive s s') (h : step s = .next t) :
    ∃ t', step s' = .next t' ∧ AgreesOnLive t t' := by
  cases hm : s.host with
  | nil =>
    rw [step_nil s hm] at h
    rw [step_nil s' (ha.host_eq.trans hm)]
    exact coreStep_agrees ha h
  | cons m rest =>
    rw [step_cons s m rest hm] at h
    rw [step_cons s' m rest (ha.host_eq.trans hm)]
    have hrest : AgreesOnLive { s with host := rest } { s' with host := rest } :=
      ⟨by rw [ha.same]; rfl, ha.opd, ha.frm, ha.cnt⟩
    exact hostStep_agrees hrest h

/-! ## Every step table is closed: from a row of the operation in progress the core steps to a row (10_state.md R37, R38) -/

/-- `t` is still in the operation `s` is in, at the same sequencer state. -/
structure SameOperation (s t : State) : Prop where
  busy : t.busy = s.busy
  curOp : t.curOp = s.curOp
  opd : t.opd = s.opd
  iseq : t.iseq = s.iseq

theorem SameOperation.opdCode_eq {s t : State} (h : SameOperation s t) : opdCode t = opdCode s := by
  rw [opdCode, h.opd, opdCode]

theorem SameOperation.opdArg_eq {s t : State} (h : SameOperation s t) : opdArg t = opdArg s := by
  rw [opdArg, h.opd, opdArg]

/-- Before the last index of a counted phase, or at it. -/
theorem cnt_lt_or_eq {c : BitVec 10} {n : Nat} (h : c.toNat < n + 1) : c.toNat < n ∨ c = BitVec.ofNat 10 n := by
  rcases Nat.lt_succ_iff_lt_or_eq.mp h with hlt | heq
  · exact .inl hlt
  · exact .inr (by rw [← heq, BitVec.ofNat_toNat, BitVec.setWidth_eq])

/-- Outside phase `FRAME` a row of the latched operation is what the core does. -/
theorem coreStep_row {i : Instr} {s t : State} (hb : s.busy = true) (hi : decodeOp s.curOp s.opd = i)
    (hp : s.ph ≠ .frame) (h : Row i s t) : coreStep s = .next t := by
  rw [coreStep_request s hb hp, hi, h.exec]

/-- A step of phase `FRAME` before its last byte stays there; after the last byte the caller goes on. -/
theorem framing_step {code : BitVec 6} {arg : BitVec 32} {s : State} (hb : s.busy = true)
    (h : framing code arg s = true) :
    (∃ t, coreStep s = .next t ∧ SameOperation s t ∧ framing code arg t = true) ∨
      coreStep s = afterFrame s.curOp { txByte s.frm[5] s with cnt := 6#10 } := by
  simp only [framing, Bool.and_eq_true, beq_iff_eq, decide_eq_true_eq] at h
  obtain ⟨⟨hp, hc⟩, hf⟩ := h
  rw [coreStep_buildFrame s code arg hb hp hf]
  rcases cnt_lt_or_eq hc with hlt | heq
  · refine .inl ⟨_, sendFrameByte_lt _ _ _ hlt, ⟨rfl, rfl, rfl, rfl⟩, ?_⟩
    have hnext : (s.cnt.toNat + 1) % 1024 < 6 := by omega
    simp [framing, hp, hf, hnext]
  · exact .inr (sendFrameByte_last _ _ _ heq)

/-- INIT, WRBLK and RDBLK read the response after the frame. -/
theorem framing_step_scan {code : BitVec 6} {arg : BitVec 32} {s : State} (hb : s.busy = true)
    (h : framing code arg s = true) (hop : s.curOp = 0x7#4 ∨ s.curOp = 0x8#4 ∨ s.curOp = 0x9#4) :
    ∃ t, coreStep s = .next t ∧ SameOperation s t ∧ (framing code arg t = true ∨ t.ph = .scan) := by
  rcases framing_step hb h with ⟨t, hs, hsame, hf⟩ | hlast
  · exact ⟨t, hs, hsame, .inl hf⟩
  · have hne : s.curOp ≠ 0x2#4 := by rcases hop with h | h | h <;> rw [h] <;> decide
    refine ⟨{ txByte s.frm[5] s with cnt := 6#10, ph := .scan }, ?_, ⟨rfl, rfl, rfl, rfl⟩, .inr rfl⟩
    rw [hlast, afterFrame, if_neg hne, if_pos hop, goto_eq]

/-- A step of the short read's `SCAN`, whoever reads (42_response_reader.md R162). -/
theorem scanShort_step {i : Instr} {s : State} (hb : s.busy = true) (hi : decodeOp s.curOp s.opd = i)
    (hr : i = .rdresp1 ∨ (i = .init ∧ (s.iseq = .sGoIdle ∨ s.iseq = .sAppCmd ∨ s.iseq = .sAppOpCond)) ∨
      (∃ a, i = .wrblk a) ∨ (∃ a, i = .rdblk a))
    (hp : s.ph = .scan) : ∃ t, coreStep s = .next t ∧ SameOperation s t ∧ readingShort t = true := by
  have hne : s.ph ≠ .frame := by simp [hp]
  cases hx : isIdleByte (rxAnswer s) with
  | true => exact ⟨_, coreStep_row hb hi hne (.scanIdle i s (by tauto) hp hx), ⟨rfl, rfl, rfl, rfl⟩, rfl⟩
  | false => exact ⟨_, coreStep_row hb hi hne (.scanShortHit i s hr hp hx), ⟨rfl, rfl, rfl, rfl⟩, rfl⟩

/-- A step of the extended read before its `DISC`, whoever reads (42_response_reader.md R164). -/
theorem readingExtended_step {i : Instr} {s : State} (hb : s.busy = true) (hi : decodeOp s.curOp s.opd = i)
    (hr : i = .rdresp5 ∨ (i = .init ∧ s.iseq = .sCheckIf)) (h : readingExtended s = true) (hd : s.ph ≠ .disc) :
    ∃ t, coreStep s = .next t ∧ SameOperation s t ∧ readingExtended t = true := by
  simp only [readingExtended, Bool.or_eq_true, Bool.and_eq_true, beq_iff_eq, decide_eq_true_eq, bne_iff_ne] at h
  rcases h with (hp | ⟨⟨⟨hp, h1⟩, h4⟩, hr0⟩) | ⟨hp, -⟩
  · have hne : s.ph ≠ .frame := by simp [hp]
    cases hx : isIdleByte (rxAnswer s) with
    | true => exact ⟨_, coreStep_row hb hi hne (.scanIdle i s (by tauto) hp hx), ⟨rfl, rfl, rfl, rfl⟩, rfl⟩
    | false =>
      refine ⟨_, coreStep_row hb hi hne (.scanExtHit i s hr hp hx), ⟨rfl, rfl, rfl, rfl⟩, ?_⟩
      have hv : rxAnswer s ≠ Config.idle := by simpa [isIdleByte] using hx
      simp [readingExtended, hv]
  · have hne : s.ph ≠ .frame := by simp [hp]
    rcases cnt_lt_or_eq (Nat.lt_succ_of_le h4) with hlt | heq
    · refine ⟨_, coreStep_row hb hi hne (.capByte i s hr hp h1 (Nat.le_of_lt_succ hlt)), ⟨rfl, rfl, rfl, rfl⟩, ?_⟩
      have hc1 : 1 ≤ (s.cnt.toNat + 1) % 1024 := by omega
      have hc4 : (s.cnt.toNat + 1) % 1024 ≤ 4 := by omega
      have hkeep : s.cnt.toNat ≠ 0 := by omega
      simp [readingExtended, hp, hc1, hc4, hr0, hkeep]
    · exact ⟨_, coreStep_row hb hi hne (.capLast i s hr hp heq), ⟨rfl, rfl, rfl, rfl⟩, by simp [readingExtended]⟩
  · exact absurd hp hd

/-- SENDCMD (41_command_framer.md R151). -/
theorem sendcmd_step {s : State} (hb : s.busy = true) (hop : s.curOp = 0x2#4)
    (h : framing (opdCode s) (opdArg s) s = true) : ∃ t, coreStep s = .next t ∧ positionOk t = true := by
  rcases framing_step hb h with ⟨t, hs, hsame, hf⟩ | hlast
  · refine ⟨t, hs, ?_⟩
    simpa [positionOk, hsame.busy, hsame.curOp, hb, hop, hsame.opdCode_eq, hsame.opdArg_eq] using hf
  · exact ⟨_, by rw [hlast, hop]; rfl, rfl⟩

/-- RDRESP1 (42_response_reader.md R162). -/
theorem rdresp1_step {s : State} (hb : s.busy = true) (hop : s.curOp = 0x3#4) (h : readingShort s = true) :
    ∃ t, coreStep s = .next t ∧ positionOk t = true := by
  have hi : decodeOp s.curOp s.opd = .rdresp1 := by rw [hop]; rfl
  simp only [readingShort, Bool.or_eq_true, Bool.and_eq_true, beq_iff_eq] at h
  rcases h with hp | ⟨hp, -⟩
  · obtain ⟨t, hs, hsame, hr⟩ := scanShort_step hb hi (.inl rfl) hp
    exact ⟨t, hs, by simp [positionOk, hsame.busy, hsame.curOp, hb, hop, hr]⟩
  · exact ⟨_, coreStep_row hb hi (by simp [hp]) (.shortDone s hp), rfl⟩

/-- RDRESP5 (42_response_reader.md R164). -/
theorem rdresp5_step {s : State} (hb : s.busy = true) (hop : s.curOp = 0x4#4) (h : readingExtended s = true) :
    ∃ t, coreStep s = .next t ∧ positionOk t = true := by
  have hi : decodeOp s.curOp s.opd = .rdresp5 := by rw [hop]; rfl
  by_cases hp : s.ph = .disc
  · exact ⟨_, coreStep_row hb hi (by simp [hp]) (.extendedDone s hp), rfl⟩
  · obtain ⟨t, hs, hsame, hr⟩ := readingExtended_step hb hi (.inl rfl) h hp
    exact ⟨t, hs, by simp [positionOk, hsame.busy, hsame.curOp, hb, hop, hr]⟩

/-- WRBLK (44_block_io.md R215). -/
theorem wrblk_step {s : State} (hb : s.busy = true) (hop : s.curOp = 0x8#4) (h : wrblkPosition s = true) :
    ∃ t, coreStep s = .next t ∧ positionOk t = true := by
  have hi : decodeOp s.curOp s.opd = .wrblk (opdArg s) := by rw [hop]; rfl
  simp only [wrblkPosition, readingShort, Bool.or_eq_true, Bool.and_eq_true, beq_iff_eq, decide_eq_true_eq] at h
  rcases h with (((hf | hp | ⟨hp, -⟩) | ⟨⟨hp, hc⟩, hr0⟩) | ⟨⟨hp, hc⟩, hr0⟩) | ⟨hp, -⟩
  · obtain ⟨t, hs, hsame, ht⟩ := framing_step_scan hb hf (.inr (.inl hop))
    refine ⟨t, hs, ?_⟩
    rcases ht with hf | hp
    · simp [positionOk, hsame.busy, hsame.curOp, hb, hop, wrblkPosition, hsame.opdArg_eq, hf]
    · simp [positionOk, hsame.busy, hsame.curOp, hb, hop, wrblkPosition, readingShort, hp]
  · obtain ⟨t, hs, hsame, hr⟩ := scanShort_step hb hi (.inr (.inr (.inl ⟨_, rfl⟩))) hp
    exact ⟨t, hs, by simp [positionOk, hsame.busy, hsame.curOp, hb, hop, wrblkPosition, hr]⟩
  · have hne : s.ph ≠ .frame := by simp [hp]
    by_cases hr : s.resp[0] = 0x00#8
    · refine ⟨_, coreStep_row hb hi hne (.writeAccepted _ s hp hr), ?_⟩
      simp [positionOk, hb, hop, wrblkPosition, hr, Config.r1Ready]
    · exact ⟨_, coreStep_row hb hi hne (.commandRejected _ s (.inl ⟨_, rfl⟩) hp hr), rfl⟩
  · have hne : s.ph ≠ .frame := by simp [hp]
    rcases cnt_lt_or_eq hc with hlt | heq
    · refine ⟨_, coreStep_row hb hi hne (.leadIdle _ s hp hlt), ?_⟩
      have hnext : (s.cnt.toNat + 1) % 1024 < 3 := by omega
      simp [positionOk, hb, hop, wrblkPosition, hp, hr0, hnext]
    · refine ⟨_, coreStep_row hb hi hne (.leadToken _ s hp heq), ?_⟩
      simp [positionOk, hb, hop, wrblkPosition, hr0, Config.blockLen]
  · have hne : s.ph ≠ .frame := by simp [hp]
    rcases cnt_lt_or_eq (n := 511) hc with hlt | heq
    · refine ⟨_, coreStep_row hb hi hne (.writeByte _ s hp hlt), ?_⟩
      have hnext : (s.cnt.toNat + 1) % 1024 < 512 := by omega
      simp [positionOk, hb, hop, wrblkPosition, hp, hr0, Config.blockLen, hnext]
    · refine ⟨_, coreStep_row hb hi hne (.writeLast _ s hp heq), ?_⟩
      simp [positionOk, hb, hop, wrblkPosition, hr0]
  · exact ⟨_, coreStep_row hb hi (by simp [hp]) (.writeEnd _ s hp), rfl⟩

/-- RDBLK (44_block_io.md R216). -/
theorem rdblk_step {s : State} (hb : s.busy = true) (hop : s.curOp = 0x9#4) (h : rdblkPosition s = true) :
    ∃ t, coreStep s = .next t ∧ positionOk t = true := by
  have hi : decodeOp s.curOp s.opd = .rdblk (opdArg s) := by rw [hop]; rfl
  simp only [rdblkPosition, readingShort, Bool.or_eq_true, Bool.and_eq_true, beq_iff_eq, decide_eq_true_eq] at h
  rcases h with (((hf | hp | ⟨hp, -⟩) | ⟨hp, hr0⟩) | ⟨⟨hp, hc⟩, hr0⟩) | ⟨⟨hp, hc⟩, hr0⟩
  · obtain ⟨t, hs, hsame, ht⟩ := framing_step_scan hb hf (.inr (.inr hop))
    refine ⟨t, hs, ?_⟩
    rcases ht with hf | hp
    · simp [positionOk, hsame.busy, hsame.curOp, hb, hop, rdblkPosition, hsame.opdArg_eq, hf]
    · simp [positionOk, hsame.busy, hsame.curOp, hb, hop, rdblkPosition, readingShort, hp]
  · obtain ⟨t, hs, hsame, hr⟩ := scanShort_step hb hi (.inr (.inr (.inr ⟨_, rfl⟩))) hp
    exact ⟨t, hs, by simp [positionOk, hsame.busy, hsame.curOp, hb, hop, rdblkPosition, hr]⟩
  · have hne : s.ph ≠ .frame := by simp [hp]
    by_cases hr : s.resp[0] = 0x00#8
    · refine ⟨_, coreStep_row hb hi hne (.readAccepted _ s hp hr), ?_⟩
      simp [positionOk, hb, hop, rdblkPosition, hr, Config.r1Ready]
    · exact ⟨_, coreStep_row hb hi hne (.commandRejected _ s (.inr ⟨_, rfl⟩) hp hr), rfl⟩
  · have hne : s.ph ≠ .frame := by simp [hp]
    cases hx : isIdleByte (rxAnswer s) with
    | true =>
      refine ⟨_, coreStep_row hb hi hne (.tokenIdle _ s hp hx), ?_⟩
      simp [positionOk, hb, hop, rdblkPosition, hr0]
    | false =>
      by_cases ht : rxAnswer s = Config.token
      · refine ⟨_, coreStep_row hb hi hne (.tokenHit _ s hp ht), ?_⟩
        simp [positionOk, hb, hop, rdblkPosition, hr0, Config.blockLen]
      · exact ⟨_, coreStep_row hb hi hne (.tokenBad _ s hp hx ht), rfl⟩
  · have hne : s.ph ≠ .frame := by simp [hp]
    rcases cnt_lt_or_eq (n := 511) hc with hlt | heq
    · refine ⟨_, coreStep_row hb hi hne (.readByte _ s hp hlt), ?_⟩
      have hnext : (s.cnt.toNat + 1) % 1024 < 512 := by omega
      simp [positionOk, hb, hop, rdblkPosition, hp, hr0, Config.blockLen, hnext]
    · refine ⟨_, coreStep_row hb hi hne (.readLast _ s hp heq), ?_⟩
      simp [positionOk, hb, hop, rdblkPosition, hr0, Config.rdTrail]
  · have hne : s.ph ≠ .frame := by simp [hp]
    rcases cnt_lt_or_eq (n := 2) hc with hlt | heq
    · refine ⟨_, coreStep_row hb hi hne (.trailByte _ s hp hlt), ?_⟩
      have hnext : (s.cnt.toNat + 1) % 1024 < 3 := by omega
      simp [positionOk, hb, hop, rdblkPosition, hp, hr0, Config.rdTrail, hnext]
    · exact ⟨_, coreStep_row hb hi hne (.trailLast _ s hp heq), rfl⟩

/-- The preamble of INIT (43_init_sequencer.md R181). -/
theorem init_preamble_step {s : State} (hb : s.busy = true) (hop : s.curOp = 0x7#4) (hq : s.iseq = .sReset)
    (hp : s.ph = .pre) (hc : s.cnt.toNat < Config.preambleLen) : ∃ t, coreStep s = .next t ∧ positionOk t = true := by
  have hi : decodeOp s.curOp s.opd = .init := by rw [hop]; rfl
  have hne : s.ph ≠ .frame := by simp [hp]
  rcases cnt_lt_or_eq (n := 9) hc with hlt | heq
  · refine ⟨_, coreStep_row hb hi hne (.preByte s hp hq hlt), ?_⟩
    have hnext : (s.cnt.toNat + 1) % 1024 < 10 := by omega
    simp [positionOk, hb, hop, initPosition, hq, hp, Config.preambleLen, hnext]
  · refine ⟨_, coreStep_row hb hi hne (.preLast s hp hq heq), ?_⟩
    simp [positionOk, hb, hop, initPosition, framing]

/-- The transition of INIT out of a response (43_init_sequencer.md R186) goes to a frame or completes. -/
theorem init_decide_step {s : State} (hb : s.busy = true) (hop : s.curOp = 0x7#4) (hp : s.ph = .disc)
    (hq : s.iseq = .sGoIdle ∨ s.iseq = .sCheckIf ∨ s.iseq = .sAppCmd ∨ s.iseq = .sAppOpCond) :
    ∃ t, coreStep s = .next t ∧ positionOk t = true := by
  have hi : decodeOp s.curOp s.opd = .init := by rw [hop]; rfl
  have hne : s.ph ≠ .frame := by simp [hp]
  rcases hq with hq | hq | hq | hq
  · by_cases hr : s.resp[0] = 0x01#8
    · refine ⟨_, coreStep_row hb hi hne (.initFrame s _ _ _ hp (.inl ⟨hq, hr, rfl, rfl, rfl⟩)), ?_⟩
      simp [positionOk, hb, hop, initPosition, framing]
    · refine ⟨_, coreStep_row hb hi hne (.initFrame s _ _ _ hp (.inr (.inl ⟨hq, hr, rfl, rfl, rfl⟩))), ?_⟩
      simp [positionOk, hb, hop, initPosition, framing]
  · by_cases hr : s.resp = Config.r7Check
    · refine ⟨_, coreStep_row hb hi hne (.initFrame s _ _ _ hp (.inr (.inr (.inl ⟨hq, hr, rfl, rfl, rfl⟩)))), ?_⟩
      simp [positionOk, hb, hop, initPosition, framing]
    · refine ⟨_, coreStep_row hb hi hne
        (.initFrame s _ _ _ hp (.inr (.inr (.inr (.inl ⟨hq, hr, rfl, rfl, rfl⟩))))), ?_⟩
      simp [positionOk, hb, hop, initPosition, framing]
  · by_cases hr : s.resp[0] = 0x01#8
    · refine ⟨_, coreStep_row hb hi hne
        (.initFrame s _ _ _ hp (.inr (.inr (.inr (.inr (.inl ⟨hq, hr, rfl, rfl, rfl⟩)))))), ?_⟩
      simp [positionOk, hb, hop, initPosition, framing]
    · refine ⟨_, coreStep_row hb hi hne
        (.initFrame s _ _ _ hp (.inr (.inr (.inr (.inr (.inr (.inl ⟨hq, hr, rfl, rfl, rfl⟩))))))), ?_⟩
      simp [positionOk, hb, hop, initPosition, framing]
  · by_cases hr : s.resp[0] = 0x00#8
    · exact ⟨_, coreStep_row hb hi hne (.initReady s hp hq hr), rfl⟩
    · refine ⟨_, coreStep_row hb hi hne
        (.initFrame s _ _ _ hp (.inr (.inr (.inr (.inr (.inr (.inr ⟨hq, hr, rfl, rfl, rfl⟩))))))), ?_⟩
      simp [positionOk, hb, hop, initPosition, framing]

theorem positionOk_init {s t : State} (hb : s.busy = true) (hop : s.curOp = 0x7#4) (h : SameOperation s t) :
    positionOk t = initPosition t := by
  simp [positionOk, h.busy, h.curOp, hb, hop]

/-- INIT at a sequencer state that sends `code`, `arg` and reads a short response. -/
theorem init_short_step {code : BitVec 6} {arg : BitVec 32} {s : State} (hb : s.busy = true) (hop : s.curOp = 0x7#4)
    (hq : s.iseq = .sGoIdle ∨ s.iseq = .sAppCmd ∨ s.iseq = .sAppOpCond)
    (hpos : ∀ t, SameOperation s t → initPosition t = (framing code arg t || readingShort t))
    (h : initPosition s = true) : ∃ t, coreStep s = .next t ∧ positionOk t = true := by
  have hi : decodeOp s.curOp s.opd = .init := by rw [hop]; rfl
  have hdone : ∀ t, SameOperation s t → framing code arg t = true ∨ readingShort t = true → positionOk t = true := by
    intro t hsame ht
    rw [positionOk_init hb hop hsame, hpos t hsame, Bool.or_eq_true]
    exact ht
  simp only [hpos s ⟨rfl, rfl, rfl, rfl⟩, readingShort, Bool.or_eq_true, Bool.and_eq_true, beq_iff_eq] at h
  rcases h with hf | hp | ⟨hp, -⟩
  · obtain ⟨t, hs, hsame, ht⟩ := framing_step_scan hb hf (.inl hop)
    exact ⟨t, hs, hdone t hsame (ht.imp_right fun hp => by simp [readingShort, hp])⟩
  · obtain ⟨t, hs, hsame, hr⟩ := scanShort_step hb hi (.inr (.inl ⟨rfl, hq⟩)) hp
    exact ⟨t, hs, hdone t hsame (.inr hr)⟩
  · exact init_decide_step hb hop hp (by tauto)

/-- INIT at `S_CHECK_IF`, the one sequencer state that reads an extended response. -/
theorem init_extended_step {s : State} (hb : s.busy = true) (hop : s.curOp = 0x7#4) (hq : s.iseq = .sCheckIf)
    (h : initPosition s = true) : ∃ t, coreStep s = .next t ∧ positionOk t = true := by
  have hi : decodeOp s.curOp s.opd = .init := by rw [hop]; rfl
  have hdone : ∀ t, SameOperation s t → framing Config.cmd8 Config.cmd8Arg t = true ∨ readingExtended t = true →
      positionOk t = true := by
    intro t hsame ht
    simpa [positionOk_init hb hop hsame, initPosition, hsame.iseq, hq] using ht
  simp only [initPosition, hq, Bool.or_eq_true] at h
  rcases h with hf | hr
  · obtain ⟨t, hs, hsame, ht⟩ := framing_step_scan hb hf (.inl hop)
    exact ⟨t, hs, hdone t hsame (ht.imp_right fun hp => by simp [readingExtended, hp])⟩
  · by_cases hp : s.ph = .disc
    · exact init_decide_step hb hop hp (by tauto)
    · obtain ⟨t, hs, hsame, ht⟩ := readingExtended_step hb hi (.inr ⟨rfl, hq⟩) hr hp
      exact ⟨t, hs, hdone t hsame (.inr ht)⟩

/-- INIT (43_init_sequencer.md R188). -/
theorem init_step {s : State} (hb : s.busy = true) (hop : s.curOp = 0x7#4) (h : initPosition s = true) :
    ∃ t, coreStep s = .next t ∧ positionOk t = true := by
  cases hq : s.iseq with
  | sOff => simp [initPosition, hq] at h
  | sReady => simp [initPosition, hq] at h
  | sReset =>
    simp only [initPosition, hq, Bool.and_eq_true, beq_iff_eq, decide_eq_true_eq] at h
    obtain ⟨hp, hc⟩ := h
    exact init_preamble_step hb hop hq hp hc
  | sCheckIf => exact init_extended_step hb hop hq h
  | sGoIdle =>
    exact init_short_step (code := Config.cmd0) (arg := 0#32) hb hop (.inl hq)
      (fun t ht => by simp [initPosition, ht.iseq, hq]) h
  | sAppCmd =>
    exact init_short_step (code := Config.cmd55) (arg := 0#32) hb hop (.inr (.inl hq))
      (fun t ht => by simp [initPosition, ht.iseq, hq]) h
  | sAppOpCond =>
    exact init_short_step (code := Config.cmd41) (arg := Config.cmd41Arg) hb hop (.inr (.inr hq))
      (fun t ht => by simp [initPosition, ht.iseq, hq]) h

/-- From a row of its tables the core steps to a row. -/
theorem coreStep_position {s : State} (h : positionOk s = true) : ∃ t, coreStep s = .next t ∧ positionOk t = true := by
  cases hb : s.busy with
  | false => exact ⟨s, coreStep_idle s hb, h⟩
  | true =>
    simp only [positionOk, hb, if_true] at h
    split at h
    case h_1 hop => exact sendcmd_step hb hop h
    case h_2 hop => exact rdresp1_step hb hop h
    case h_3 hop => exact rdresp5_step hb hop h
    case h_4 hop => exact init_step hb hop h
    case h_5 hop => exact wrblk_step hb hop h
    case h_6 hop => exact rdblk_step hb hop h
    case h_7 => simp at h

/-- The first step of an accepted request completes it or enters its table (10_state.md R38). -/
theorem exec_accept_position (op : BitVec 4) (operand : BitVec 40) (s : State) (hp : s.ph = .idle) :
    ∃ t, exec (decodeOp op operand) (accept op operand s) = .next t ∧ positionOk t = true := by
  have hpa : (accept op operand s).ph = .idle := hp
  cases hn : noExchange (decodeOp op operand) with
  | true => exact ⟨_, (Row.done _ _ hn).exec, rfl⟩
  | false =>
    unfold decodeOp at hn ⊢
    split
    case h_3 => exact ⟨_, (Row.enterSend _ _ _ hpa).exec, by simp [positionOk, framing, opdCode, opdArg]⟩
    case h_4 => exact ⟨_, (Row.enterScan _ _ (.inl rfl) hpa).exec, rfl⟩
    case h_5 => exact ⟨_, (Row.enterScan _ _ (.inr rfl) hpa).exec, rfl⟩
    case h_8 => exact ⟨_, (Row.enterInit _ hpa).exec, by simp [positionOk, initPosition, Config.preambleLen]⟩
    case h_9 => exact ⟨_, (Row.enterWrite _ _ hpa).exec, by simp [positionOk, wrblkPosition, framing, opdArg]⟩
    case h_10 => exact ⟨_, (Row.enterRead _ _ hpa).exec, by simp [positionOk, rdblkPosition, framing, opdArg]⟩
    all_goals simp [noExchange] at hn

theorem hostStep_position {m : HostMove} {s : State} (h : positionOk s = true) :
    ∃ t, hostStep m s = .next t ∧ positionOk t = true := by
  cases m with
  | pass => exact coreStep_position h
  | writeReq w =>
    cases hb : s.busy with
    | true => exact ⟨s, by simp [hostStep, writeReq, hb], h⟩
    | false =>
      have hp : s.ph = .idle := by simpa [positionOk, hb] using h
      obtain ⟨t, hs, ht⟩ := exec_accept_position (reqOp w) (reqOperand w) s hp
      exact ⟨t, by simpa [hostStep, writeReq, hb, decodeReq] using hs, ht⟩
  | writeWrbuf i v => exact ⟨_, rfl, h⟩
  | reset => exact ⟨_, rfl, rfl⟩

/-- A sound position is never stuck, and every step keeps it sound, whatever the host does. -/
theorem step_position {s : State} (h : positionOk s = true) : ∃ t, step s = .next t ∧ positionOk t = true := by
  cases hm : s.host with
  | nil => rw [step_nil s hm]; exact coreStep_position h
  | cons m rest => rw [step_cons s m rest hm]; exact hostStep_position (s := { s with host := rest }) h

/-! ## Runs -/

/-- Runs from states that agree go on for ever and agree. -/
theorem run_agrees (n : Nat) {s s' : State} (h : positionOk s = true) (ha : AgreesOnLive s s') :
    ∃ t t', Host.Core.run Sys2Proof.core n s = .next t ∧ Host.Core.run Sys2Proof.core n s' = .next t' ∧
      AgreesOnLive t t' := by
  induction n generalizing s s' with
  | zero => exact ⟨s, s', rfl, rfl, ha⟩
  | succ n ih =>
    obtain ⟨u, hu, hpos⟩ := step_position h
    obtain ⟨u', hu', hagree⟩ := step_agrees ha hu
    rw [run_succ n s u hu, run_succ n s' u' hu']
    exact ih hpos hagree

theorem positionOk_of_inv {s : State} (h : inv s = true) : positionOk s = true := by
  simp only [inv, Bool.and_eq_true] at h
  obtain ⟨⟨⟨⟨-, hpos⟩, -⟩, -⟩, -⟩ := h
  exact hpos

/-- Settles O48: an idle core agrees with itself under other temporaries, since it is in no phase that reads them, and
`run_agrees` carries the agreement through the runs. -/
theorem deadTemporariesNeverMatter : Obligations.DeadTemporariesNeverMatter := by
  unfold Obligations.DeadTemporariesNeverMatter
  intro n s opd frm tok cnt hinv hb
  have hpos := positionOk_of_inv hinv
  have hp : s.ph = .idle := by simpa [positionOk, hb] using hpos
  have ha : AgreesOnLive s { s with opd := opd, frm := frm, tok := tok, cnt := cnt } :=
    ⟨rfl, by simp [hb], by simp [hp], by simp [hp, readsCnt]⟩
  obtain ⟨t, t', hrun, hrun', hagree⟩ := run_agrees n hpos ha
  exact ⟨t, t', hrun, hrun', hagree.same⟩

end Sys2Proof.Machine
end

section
/-! PROOFS of the family 30_encoding.md: ignored operand bits (R115), the layout of the command frame (R101 to R103), NOP (R123)
and the reserved codes (R114). -/

namespace Sys2Proof.Machine

/-! ## Ignored operand bits (30_encoding.md R115) -/

/-- A field inside the low `n` bits depends on those bits only. -/
theorem field_congr {a b : BitVec 40} {n start len : Nat} (h : a.extractLsb' 0 n = b.extractLsb' 0 n)
    (hn : start + len ≤ n) : a.extractLsb' start len = b.extractLsb' start len := by
  rw [← BitVec.extractLsb'_extractLsb'_of_le (x := a) hn, h, BitVec.extractLsb'_extractLsb'_of_le hn]

theorem decodeReq_append (op : BitVec 4) (operand : BitVec 40) : decodeReq (op ++ operand) = decodeOp op operand :=
  congrArg₂ decodeOp (reqOp_reqOf op operand) (reqOperand_reqOf op operand)

/-- The operation a code selects depends on the operand bits listed for that code only (30_encoding.md R111). -/
theorem decodeOp_congr {op : BitVec 4} {a b : BitVec 40}
    (hcrc : op = 0x1#4 → a.extractLsb' 0 15 = b.extractLsb' 0 15)
    (hsend : op = 0x2#4 → a.extractLsb' 0 38 = b.extractLsb' 0 38)
    (hshort : op = 0x5#4 → a.extractLsb' 0 8 = b.extractLsb' 0 8)
    (hext : op = 0x6#4 → a = b)
    (hblock : op = 0x8#4 ∨ op = 0x9#4 → a.extractLsb' 0 32 = b.extractLsb' 0 32) :
    decodeOp op a = decodeOp op b := by
  unfold decodeOp
  split
  case h_2 =>
    have h := hcrc rfl
    rw [field_congr (start := 8) (len := 7) h (by decide), field_congr (start := 0) (len := 8) h (by decide)]
  case h_3 =>
    have h := hsend rfl
    rw [field_congr (start := 32) (len := 6) h (by decide), field_congr (start := 0) (len := 32) h (by decide)]
  case h_6 => rw [hshort rfl]
  case h_7 => rw [hext rfl]
  case h_9 => rw [hblock (.inl rfl)]
  case h_10 => rw [hblock (.inr rfl)]
  all_goals rfl

/-- Of the state, the result of an operation without an exchange depends on `RESP` only. -/
theorem immediateOk_congr (i : Instr) {s t : State} (h : t.resp = s.resp) : immediateOk i t = immediateOk i s := by
  cases i
  case match1 e =>
    change matchesShort e t = matchesShort e s
    simp only [matchesShort, h]
  case match5 e =>
    change matchesExtended (unpackExp e) t = matchesExtended (unpackExp e) s
    simp only [matchesExtended, h]
  all_goals rfl

/-- `s` with another value in the operand latch. -/
def State.withOpd (s : State) (o : BitVec 40) : State := { s with opd := o }

/-- No row of the step tables reads or writes the operand latch: each is a row with any other value in it. -/
theorem Row.withOpd {i : Instr} {s t : State} (h : Row i s t) (o : BitVec 40) : Row i (s.withOpd o) (t.withOpd o) := by
  cases h
  case done hi => rw [← immediateOk_congr i (s := s) (t := s.withOpd o) rfl]; exact .done i _ hi
  case enterSend hp => exact .enterSend _ _ _ hp
  case enterWrite hp => exact .enterWrite _ _ hp
  case enterRead hp => exact .enterRead _ _ hp
  case enterScan hi hp => exact .enterScan i _ hi hp
  case enterInit hp => exact .enterInit _ hp
  case frameByte hi hp hc => exact .frameByte i (s.withOpd o) hi hp hc
  case frameDone hp hc hi => exact .frameDone i (s.withOpd o) hi hp hc
  case frameScan hp hc hi => exact .frameScan i (s.withOpd o) hi hp hc
  case preByte hp hq hc => exact .preByte _ hp hq hc
  case preLast hp hq hc => exact .preLast _ hp hq hc
  case scanIdle hp hx hi => exact .scanIdle i _ hi hp hx
  case scanShortHit hp hx hi => exact .scanShortHit i _ hi hp hx
  case scanExtHit hp hx hi => exact .scanExtHit i _ hi hp hx
  case capByte hp h1 h3 hi => exact .capByte i _ hi hp h1 h3
  case capLast hp hc hi => exact .capLast i _ hi hp hc
  case shortDone hp => exact .shortDone _ hp
  case extendedDone hp => exact .extendedDone _ hp
  case initFrame hp hq => exact .initFrame _ _ _ _ hp hq
  case initReady hp hq hr => exact .initReady _ hp hq hr
  case commandRejected hi hp hr => exact .commandRejected i _ hi hp hr
  case writeAccepted hp hr => exact .writeAccepted _ _ hp hr
  case leadIdle hp hc => exact .leadIdle _ _ hp hc
  case leadToken hp hc => exact .leadToken _ _ hp hc
  case writeByte hp hc => exact .writeByte _ _ hp hc
  case writeLast hp hc => exact .writeLast _ _ hp hc
  case writeEnd hp => exact .writeEnd _ _ hp
  case readAccepted hp hr => exact .readAccepted _ _ hp hr
  case tokenIdle hp hx => exact .tokenIdle _ _ hp hx
  case tokenHit hp hx => exact .tokenHit _ _ hp hx
  case tokenBad hp hx hn => exact .tokenBad _ _ hp hx hn
  case readByte hp hc => exact .readByte _ _ hp hc
  case readLast hp hc => exact .readLast _ _ hp hc
  case trailByte hp hc => exact .trailByte _ _ hp hc
  case trailLast hp hc => exact .trailLast _ _ hp hc

/-- Settles O9: the decoder reads the listed bits only (`decodeOp_congr`), and no row of the step tables reads `OPD`
(`Row.withOpd`). -/
theorem ignoredOperandBitsChangeNothing : Obligations.IgnoredOperandBitsChangeNothing := by
  unfold Obligations.IgnoredOperandBitsChangeNothing
  constructor
  · intro op a b hcrc hsend hshort hext hblock
    rw [decodeReq_append, decodeReq_append, decodeOp_congr hcrc hsend hshort hext hblock]
  · intro i s t o h
    exact ((exec_row h).withOpd o).exec

/-! ## The layout of the command frame (30_encoding.md R101 to R103) -/

/-- The command byte is in `0x40` to `0x7F` (30_encoding.md R102). -/
theorem commandByte_range (code : BitVec 6) : 0x40 ≤ (commandByte code).toNat ∧ (commandByte code).toNat ≤ 0x7F := by
  revert code
  decide

/-- The checksum byte is odd: its low bit is the end bit (30_encoding.md R103). -/
theorem checksumByte_odd (crc : BitVec 7) : (checksumByte crc).toNat % 2 = 1 := by
  revert crc
  decide

/-- Settles O14: as one number the frame is `frameOf` of its fields, and each byte is the one `buildFrame` lists. -/
theorem builtFrameHasTheLayout : Obligations.BuiltFrameHasTheLayout := by
  unfold Obligations.BuiltFrameHasTheLayout
  intro code arg f w
  have hw : w = frameOf code arg (frameCrc code arg) := wordOfBytes_buildFrame code arg
  obtain ⟨hstart, hend⟩ := Laws.EncodeShape.frameOf_ends code arg (frameCrc code arg)
  obtain ⟨hlow, hhigh⟩ := commandByte_range code
  rw [hw]
  exact ⟨hstart, frameOf_code _ _ _, frameOf_arg _ _ _, frameOf_crc _ _ _, hend, rfl, commandByte_append code, hlow, hhigh,
    rfl, rfl, rfl, rfl, rfl, checksumByte_append _, checksumByte_odd _⟩

/-! ## Operations without an exchange (30_encoding.md R114, R123) -/

/-- An idle core completes an operation without an exchange in the step that accepts it (10_state.md R38). -/
theorem step_request_immediate {s : State} {op : BitVec 4} {operand : BitVec 40} {rest : List HostMove}
    (hi : noExchange (decodeOp op operand) = true) (hb : s.busy = false) (hp : s.ph = .idle)
    (h : s.host = .writeReq (op ++ operand) :: rest) :
    step s = .next { s with
      host := rest, curOp := op, opd := operand,
      ok := immediateOk (decodeOp op operand) s, val := immediateVal (decodeOp op operand) } := by
  rw [step_request s op operand rest h hb, (Row.done _ _ hi).exec, immediateOk_congr (s := s)]
  · simp only [hb, hp]
  · rfl

/-- Settles O23: NOP is an operation without an exchange whose result is `OK` = 1, `VAL` = 0. -/
theorem nopCompletesAtOnce : Obligations.NopCompletesAtOnce := by
  unfold Obligations.NopCompletesAtOnce
  refine ⟨fun s => (Row.done .nop s rfl).exec, ?_, ?_⟩
  · intro s operand rest hb hp h
    exact step_request_immediate rfl hb hp h
  · exact ⟨_, step_request_immediate (op := 0#4) (operand := 0#40) rfl rfl rfl rfl, by decide⟩

/-- Is `i` a row of the six reserved codes (30_encoding.md R114)? -/
def IsReserved (i : Instr) : Prop :=
  i = .reservedA ∨ i = .reservedB ∨ i = .reservedC ∨ i = .reservedD ∨ i = .reservedE ∨ i = .reservedF

/-- A reserved code makes no exchange and its result is `OK` = 0, `VAL` = 0. -/
theorem immediate_of_isReserved {i : Instr} (hi : IsReserved i) (s : State) :
    noExchange i = true ∧ immediateOk i s = false ∧ immediateVal i = 0#40 := by
  rcases hi with rfl | rfl | rfl | rfl | rfl | rfl <;> exact ⟨rfl, rfl, rfl⟩

/-- The codes `0xA` to `0xF` are the reserved ones, whatever the operand. -/
theorem isReserved_decodeOp {op : BitVec 4} (operand : BitVec 40) (h : 10 ≤ op.toNat) :
    IsReserved (decodeOp op operand) := by
  unfold decodeOp IsReserved
  split <;> simp_all

/-- Settles O24: the reserved codes are operations without an exchange that fail. -/
theorem reservedCodesCompleteWithFailure : Obligations.ReservedCodesCompleteWithFailure := by
  unfold Obligations.ReservedCodesCompleteWithFailure
  constructor
  · intro i s hi
    obtain ⟨hn, hok, hval⟩ := immediate_of_isReserved hi s
    rw [(Row.done i s hn).exec, hok, hval]
  · intro s op operand rest hop hb hp h
    obtain ⟨hn, hok, hval⟩ := immediate_of_isReserved (isReserved_decodeOp operand hop) s
    rw [step_request_immediate hn hb hp h, hok, hval]

end Sys2Proof.Machine
end

section
/-! PROOFS of the family 40_checksum.md: the table of `update(0, b)` (R143). -/

namespace Sys2Proof.Machine

/-- Settles O21: a closed, finite fact, so the kernel runs the bit-serial loop of R140 on each of the 256 bytes and compares the
result with the entry printed in R143. -/
theorem checksumTableOfEveryByte : Obligations.ChecksumTableOfEveryByte := by
  unfold Obligations.ChecksumTableOfEveryByte
  decide +kernel

end Sys2Proof.Machine
end

section
/-! PROOFS of the family 41_command_framer.md: the invariants of every sent frame (R152), the step table of `SendCommand` (R151)
and SENDCMD (R150). -/

namespace Sys2Proof.Machine

open Sys2Proof.Safety

/-! ## The frames the core sends (41_command_framer.md R152) -/

/-- A sound core in phase `FRAME` is sending a frame that `SendCommand` built, whichever operation called it. -/
theorem framing_of_positionOk {s : State} (h : positionOk s = true) (hb : s.busy = true) (hp : s.ph = .frame) :
    ∃ code arg, framing code arg s = true := by
  have hshort : readingShort s = false := by simp [readingShort, hp]
  have hext : readingExtended s = false := by simp [readingExtended, hp]
  simp only [positionOk, hb, if_true] at h
  split at h
  case h_1 => exact ⟨_, _, h⟩
  case h_2 => simp [hshort] at h
  case h_3 => simp [hext] at h
  case h_4 =>
    unfold initPosition at h
    split at h
    case h_1 => simp [hp] at h
    case h_6 => simp at h
    case h_7 => simp at h
    all_goals exact ⟨_, _, by simpa [hshort, hext] using h⟩
  case h_5 => exact ⟨_, _, by simpa [wrblkPosition, hshort, hp] using h⟩
  case h_6 => exact ⟨_, _, by simpa [rdblkPosition, hshort, hp] using h⟩
  case h_7 => simp at h

/-- The checksum byte of a checksum takes the accumulator from it to the residue `0x09` (40_checksum.md R141). -/
theorem crcUpdate_checksumByte (crc : BitVec 7) : crcUpdate crc (checksumByte crc) = 0x09#7 := by
  revert crc
  decide +kernel

/-- The checksum is the upper seven bits of the checksum byte. -/
theorem checksumByte_shiftRight (crc : BitVec 7) : checksumByte crc >>> 1 = crc.setWidth 8 := by
  revert crc
  decide

/-- The accumulator after all six bytes of a built frame: its checksum, taken through its checksum byte. -/
theorem crc7_buildFrame (code : BitVec 6) (arg : BitVec 32) : crc7 (buildFrame code arg).toList = 0x09#7 :=
  crcUpdate_checksumByte (frameCrc code arg)

/-- Settles O16: in phase `FRAME` the invariant says that `FRM` is a built frame, and every built frame has the five
properties. -/
theorem sentFramesKeepTheirInvariants : Obligations.SentFramesKeepTheirInvariants := by
  unfold Obligations.SentFramesKeepTheirInvariants
  intro s hinv hb hp
  obtain ⟨code, arg, h⟩ := framing_of_positionOk (positionOk_of_inv hinv) hb hp
  have hf : s.frm = buildFrame code arg := by
    simp only [framing, Bool.and_eq_true, beq_iff_eq] at h
    exact h.2
  obtain ⟨hlow, hhigh⟩ := commandByte_range code
  simp only [hf]
  exact ⟨hlow, hhigh, checksumByte_odd _, (checksumByte_shiftRight (frameCrc code arg)).symm, crc7_buildFrame code arg,
    code, arg, rfl⟩

/-! ## The step table of `SendCommand` (41_command_framer.md R151) -/

/-- INIT turns to phase `FRAME` with a built frame at index 0: out of the preamble, or out of a response. -/
theorem init_enters_built_frame {s t : State} (hp : s.ph ≠ .frame) (h : exec .init s = .next t) (ht : t.ph = .frame) :
    t.cnt = 0#10 ∧ ∃ code arg, t.frm = buildFrame code arg := by
  cases exec_row h
  case preLast => exact ⟨rfl, _, _, rfl⟩
  case initFrame => exact ⟨rfl, _, _, rfl⟩
  all_goals simp_all

theorem afterFrame_sendcmd (s : State) :
    afterFrame 0x2#4 s = .next { s with ok := true, val := 0#40, busy := false, ph := .idle } := rfl

theorem afterFrame_scan {op : BitVec 4} (h : op = 0x7#4 ∨ op = 0x8#4 ∨ op = 0x9#4) (s : State) :
    afterFrame op s = .next { s with ph := .scan } := by
  rcases h with rfl | rfl | rfl <;> rfl

/-- The state is at a step of phase `FRAME` that the host leaves to the core, with a command frame in `FRM`. -/
structure Sending (s : State) : Prop where
  host : s.host = []
  busy : s.busy = true
  phase : s.ph = .frame
  start : s.frm[0].extractLsb' 6 2 = 0b01#2
  last : s.frm[5].extractLsb' 0 1 = 1#1

namespace Sending

variable {s : State}

theorem step_eq (h : Sending s) : step s = sendFrameByte s.frm (afterFrame s.curOp) s := by
  rw [step_nil s h.host, coreStep_frame s h.busy h.phase h.start h.last]

theorem step_byte (h : Sending s) (hc : s.cnt.toNat < 5) :
    step s = .next { txByte s.frm[s.cnt.toNat] s with cnt := s.cnt + 1#10 } := by
  rw [h.step_eq, sendFrameByte_lt _ _ _ hc]

theorem step_last (h : Sending s) (hc : s.cnt = 5#10) :
    step s = afterFrame s.curOp { txByte s.frm[5] s with cnt := 6#10 } := by
  rw [h.step_eq, sendFrameByte_last _ _ _ hc]

end Sending

/-- Settles O28: entry at acceptance is a row of the step tables, INIT's entries are `init_enters_built_frame`, and the six
rows are `Sending.step_byte` and `Sending.step_last` with the caller's continuation. -/
theorem sendCommandStepTable : Obligations.SendCommandStepTable := by
  unfold Obligations.SendCommandStepTable
  refine ⟨fun code arg s hp => ⟨(Row.enterSend code arg s hp).exec, (Row.enterWrite arg s hp).exec,
    (Row.enterRead arg s hp).exec⟩, fun s t => init_enters_built_frame, ?_⟩
  intro s hh hb hp hstart hlast
  have hs : Sending s := ⟨hh, hb, hp, hstart, hlast⟩
  refine ⟨hs.step_byte, fun hc hop => ?_, fun hc hop => ?_⟩
  · rw [hs.step_last hc, hop, afterFrame_sendcmd]
  · rw [hs.step_last hc, afterFrame_scan hop]

/-! ## SENDCMD (41_command_framer.md R150) -/

/-- `s` after `TxByte` of the first `n` bytes of `FRM`. -/
def State.afterBytes (s : State) (n : Nat) : State :=
  { s with
    cnt := BitVec.ofNat 10 n, xn := s.xn + n, wire := ((s.frm.toList.take n).map Event.tx).reverse ++ s.wire }

theorem Sending.afterBytes {s : State} (h : Sending s) (n : Nat) : Sending (s.afterBytes n) :=
  ⟨h.host, h.busy, h.phase, h.start, h.last⟩

/-- One more byte of the frame. -/
theorem txByte_afterBytes {s : State} {n : Nat} (hn : n < 6) :
    { txByte s.frm[n] (s.afterBytes n) with cnt := BitVec.ofNat 10 (n + 1) } = s.afterBytes (n + 1) := by
  have htake : s.frm.toList.take (n + 1) = s.frm.toList.take n ++ [s.frm[n]] := by
    rw [List.take_succ_eq_append_getElem (by simpa using hn)]
    simp
  simp [State.afterBytes, txByte, htake, Nat.add_assoc]

/-- From `CNT` = 0 the first five steps send the first five bytes of the frame in order. -/
theorem Sending.run_bytes {s : State} (h : Sending s) (hc : s.cnt = 0#10) {n : Nat} (hn : n ≤ 5) :
    Host.Core.run Sys2Proof.core n s = .next (s.afterBytes n) := by
  induction n with
  | zero => simp [State.afterBytes, ← hc]
  | succ n ih =>
    have hcnt : (s.afterBytes n).cnt.toNat = n := by simp [State.afterBytes]; omega
    have hstep : step (s.afterBytes n) = .next (s.afterBytes (n + 1)) := by
      rw [(h.afterBytes n).step_byte (by omega), ← txByte_afterBytes (by omega)]
      simp only [hcnt]
      simp [State.afterBytes, BitVec.ofNat_add]
    rw [run_add n 1 s _ (ih (by omega)), run_succ 0 _ _ hstep, run_zero]

/-- From `CNT` = 0 a sent frame takes five steps and the one that sends the last byte and goes on as the caller does. -/
theorem Sending.run_frame {s t : State} (h : Sending s) (hc : s.cnt = 0#10)
    (ht : afterFrame s.curOp (s.afterBytes 6) = .next t) : Host.Core.run Sys2Proof.core 6 s = .next t := by
  have hstep : step (s.afterBytes 5) = .next t := by
    rw [(h.afterBytes 5).step_last rfl, ← ht, ← txByte_afterBytes (n := 5) (by decide)]
    rfl
  rw [run_add 5 1 s _ (h.run_bytes hc (by decide)), run_succ 0 _ _ hstep, run_zero]

/-- The state SENDCMD of `operand` enters at acceptance: its frame built, index 0. -/
def State.acceptedSendcmd (s : State) (operand : BitVec 40) : State :=
  { s with
    host := [], curOp := 0x2#4, opd := operand, busy := true,
    frm := buildFrame (operand.extractLsb' 32 6) (operand.extractLsb' 0 32), cnt := 0#10, ph := .frame }

theorem step_sendcmd {s : State} {operand : BitVec 40} (hb : s.busy = false) (hp : s.ph = .idle)
    (hh : s.host = [.writeReq (0x2#4 ++ operand)]) : step s = .next (s.acceptedSendcmd operand) := by
  rw [step_request s _ operand [] hh hb]
  exact Row.exec (.enterSend _ _ _ hp)

theorem sending_acceptedSendcmd (s : State) (operand : BitVec 40) : Sending (s.acceptedSendcmd operand) := by
  obtain ⟨hstart, hlast⟩ := buildFrame_ends (operand.extractLsb' 32 6) (operand.extractLsb' 0 32)
  exact ⟨rfl, rfl, rfl, hstart, hlast⟩

/-- Settles O51: acceptance enters the frame of `CODE` and `ARG` at index 0, and `Sending.run_frame` sends it. -/
theorem sendcmdRun : Obligations.SendcmdRun := by
  unfold Obligations.SendcmdRun
  intro s operand hb hp hh code arg crc f
  rw [run_succ 6 s _ (step_sendcmd hb hp hh),
    (sending_acceptedSendcmd s operand).run_frame rfl (afterFrame_sendcmd _), hb, hp]
  rfl

end Sys2Proof.Machine
end

section
/-! PROOFS of the family 42_response_reader.md: the step tables of `ReadShort` (R162) and `ReadExtended` (R164), and whole runs of
RDRESP1 (R161) and RDRESP5 (R163). -/

namespace Sys2Proof.Machine

/-! ## The two readers (42_response_reader.md R162, R164) -/

/-- `i` reads a short response in `SCAN`. -/
def ReadsShort (i : Instr) (s : State) : Prop :=
  i = .rdresp1 ∨ (i = .init ∧ (s.iseq = .sGoIdle ∨ s.iseq = .sAppCmd ∨ s.iseq = .sAppOpCond)) ∨
    (∃ a, i = .wrblk a) ∨ (∃ a, i = .rdblk a)

/-- `i` reads an extended response in `SCAN` and `CAP`. -/
def ReadsExtended (i : Instr) (s : State) : Prop := i = .rdresp5 ∨ (i = .init ∧ s.iseq = .sCheckIf)

theorem isIdleByte_iff (b : Byte) : isIdleByte b = true ↔ b = 0xFF#8 := beq_iff_eq

theorem isIdleByte_of_ne {b : Byte} (h : b ≠ 0xFF#8) : isIdleByte b = false :=
  Bool.eq_false_iff.mpr ((isIdleByte_iff b).not.mpr h)

/-- A write inside a vector (`storeResp` writes with `setIfInBounds`, 10_state.md R24). -/
theorem setIfInBounds_eq_set {n c : Nat} (r : Vector Byte n) (v : Byte) (hc : c < n) :
    r.setIfInBounds c v = r.set c v hc := by
  ext j hj
  simp [Vector.getElem_setIfInBounds, Vector.getElem_set]

/-- Both readers skip an idle byte, which only `TOK` keeps. -/
theorem Row.skipIdle {i : Instr} {s : State} (hi : ReadsShort i s ∨ ReadsExtended i s) (hp : s.ph = .scan)
    (hx : rxAnswer s = 0xFF#8) : Row i s { rxByte s with tok := 0xFF#8 } := by
  have h := Row.scanIdle i s (by unfold ReadsShort ReadsExtended at hi; tauto) hp ((isIdleByte_iff _).mpr hx)
  simpa only [readTok, rxByte, hx, ← hp] using h

/-- The short reader stops at the first byte that is not idle. -/
theorem Row.shortFound {i : Instr} {s : State} (hi : ReadsShort i s) (hp : s.ph = .scan) (hx : rxAnswer s ≠ 0xFF#8) :
    Row i s { rxByte s with
      tok := rxAnswer s, resp := s.resp.set 0 (rxAnswer s), respLen := .short1, ph := .disc } := by
  rw [← setIfInBounds_eq_set]
  exact .scanShortHit i s hi hp (isIdleByte_of_ne hx)

/-- The extended reader goes on to `CAP` from the first byte that is not idle. -/
theorem Row.extendedFound {i : Instr} {s : State} (hi : ReadsExtended i s) (hp : s.ph = .scan)
    (hx : rxAnswer s ≠ 0xFF#8) :
    Row i s { rxByte s with
      tok := rxAnswer s, resp := s.resp.set 0 (rxAnswer s), cnt := 1#10, ph := .cap } := by
  rw [← setIfInBounds_eq_set]
  exact .scanExtHit i s hi hp (isIdleByte_of_ne hx)

/-- `CAP` at 1 to 3 stores the byte, whatever it is, and counts. -/
theorem Row.captured {i : Instr} {s : State} (hi : ReadsExtended i s) (hp : s.ph = .cap) (c : Fin 5) (h1 : 1 ≤ c.val)
    (h3 : c.val ≤ 3) (hc : s.cnt.toNat = c.val) :
    Row i s { rxByte s with resp := s.resp.set c.val (rxAnswer s), cnt := s.cnt + 1#10 } := by
  rw [← setIfInBounds_eq_set]
  simp only [← hc] at h1 h3 ⊢
  exact .capByte i s hi hp h1 h3

/-- `CAP` at 4 stores the last byte and ends the capture. -/
theorem Row.capturedLast {i : Instr} {s : State} (hi : ReadsExtended i s) (hp : s.ph = .cap) (hc : s.cnt = 4#10) :
    Row i s { rxByte s with
      resp := s.resp.set 4 (rxAnswer s), cnt := 5#10, respLen := .ext5, ph := .disc } := by
  rw [← setIfInBounds_eq_set]
  exact .capLast i s hi hp hc

/-- A step that a comparison decides, from its two rows. -/
theorem exec_ite {i : Instr} {s t u : State} {c : Prop} [Decidable c] (ht : c → Row i s t) (hu : ¬ c → Row i s u) :
    exec i s = .next (if c then t else u) := by
  split
  · exact (ht ‹_›).exec
  · exact (hu ‹_›).exec

/-- Settles O29: each clause is a row of the step tables, or the two rows of a comparison. -/
theorem readShortStepTable : Obligations.ReadShortStepTable := by
  unfold Obligations.ReadShortStepTable
  refine ⟨fun s hp => (Row.enterScan _ s (.inl rfl) hp).exec, fun i s hi hp => ?_, fun a s hp => ⟨?_, ?_⟩,
    fun s hp => ⟨fun hq => ?_, fun hq => ?_, fun hq => ?_⟩, fun s hp => (Row.shortDone s hp).exec⟩
  · have hr : ReadsShort i s := by unfold ReadsShort; tauto
    exact ⟨fun hx => (Row.skipIdle (.inl hr) hp hx).exec, fun hx => (Row.shortFound hr hp hx).exec⟩
  · exact exec_ite (.writeAccepted a s hp) (.commandRejected _ s (.inl ⟨a, rfl⟩) hp)
  · exact exec_ite (.readAccepted a s hp) (.commandRejected _ s (.inr ⟨a, rfl⟩) hp)
  · exact exec_ite (fun hr => .initFrame s _ _ _ hp (.inl ⟨hq, hr, rfl, rfl, rfl⟩))
      (fun hr => .initFrame s s.iseq _ _ hp (.inr (.inl ⟨hq, hr, hq, rfl, rfl⟩)))
  · exact exec_ite (fun hr => .initFrame s _ _ _ hp (.inr (.inr (.inr (.inr (.inl ⟨hq, hr, rfl, rfl, rfl⟩))))))
      (fun hr => .initFrame s s.iseq _ _ hp (.inr (.inr (.inr (.inr (.inr (.inl ⟨hq, hr, hq, rfl, rfl⟩)))))))
  · exact exec_ite (.initReady s hp hq)
      (fun hr => .initFrame s _ _ _ hp (.inr (.inr (.inr (.inr (.inr (.inr ⟨hq, hr, rfl, rfl, rfl⟩)))))))

/-- Settles O30: each clause is a row of the step tables, or the two rows of the comparison with `01 00 00 01 AA`. -/
theorem readExtendedStepTable : Obligations.ReadExtendedStepTable := by
  unfold Obligations.ReadExtendedStepTable
  refine ⟨fun s hp => (Row.enterScan _ s (.inr rfl) hp).exec, fun i s hi => ⟨?_, ?_, ?_, ?_⟩,
    fun s hp => (Row.extendedDone s hp).exec, fun s hp hq => ?_⟩
  · exact fun hp hx => (Row.skipIdle (.inr hi) hp hx).exec
  · exact fun hp hx => (Row.extendedFound hi hp hx).exec
  · exact fun c h1 h3 hp hc => (Row.captured hi hp c h1 h3 hc).exec
  · exact fun hp hc => (Row.capturedLast hi hp hc).exec
  · exact exec_ite (fun hr => .initFrame s _ _ _ hp (.inr (.inr (.inl ⟨hq, hr, rfl, rfl, rfl⟩))))
      (fun hr => .initFrame s s.iseq _ _ hp (.inr (.inr (.inr (.inl ⟨hq, hr, hq, rfl, rfl⟩)))))

/-! ## Runs of a reader -/

/-- The operation `i` is in progress, and the host leaves the coming steps to the core. -/
structure Running (i : Instr) (s : State) : Prop where
  host : s.host = []
  busy : s.busy = true
  op : decodeOp s.curOp s.opd = i

/-- Outside phase `FRAME` a row of the operation in progress is the machine's next step. -/
theorem Running.step_row {i : Instr} {s t : State} (h : Running i s) (hp : s.ph ≠ .frame) (hr : Row i s t) :
    step s = .next t := by
  rw [step_nil s h.host, coreStep_row h.busy h.op hp hr]

/-- `RxByte()` takes the first byte of the script (20_memory.md R72). -/
theorem rxByte_cons {s : State} {v : Byte} {later : List Byte} (h : s.rx = v :: later) :
    rxByte s = { s with rx := later, xn := s.xn + 1, wire := .rx v :: s.wire } := by
  simp [rxByte, rxAnswer_cons s v later h, h]

/-- `s` after the read of `k` idle bytes, with `tok` in `TOK` and the answers `later` to come. -/
def State.afterIdle (s : State) (k : Nat) (tok : Byte) (later : List Byte) : State :=
  { s with
    rx := later, tok := tok, xn := s.xn + k, wire := List.replicate k (.rx 0xFF#8) ++ s.wire }

theorem Running.afterIdle {i : Instr} {s : State} (h : Running i s) (k : Nat) (tok : Byte) (later : List Byte) :
    Running i (s.afterIdle k tok later) :=
  ⟨h.host, h.busy, h.op⟩

/-- `k` idle bytes after a first one are `k + 1`. -/
theorem afterIdle_one_afterIdle (s : State) (k : Nat) (first tok : Byte) (rest later : List Byte) :
    (s.afterIdle 1 first rest).afterIdle k tok later = s.afterIdle (k + 1) tok later := by
  simp [State.afterIdle, List.replicate_succ', Nat.add_assoc, Nat.add_comm 1 k]

/-- A step of `SCAN` on an idle byte, in either reader. -/
theorem Running.step_idle {i : Instr} {s : State} {rest : List Byte} (h : Running i s)
    (hi : ReadsShort i s ∨ ReadsExtended i s) (hp : s.ph = .scan) (hx : s.rx = 0xFF#8 :: rest) :
    step s = .next (s.afterIdle 1 0xFF#8 rest) := by
  rw [h.step_row (by simp [hp]) (.skipIdle hi hp (rxAnswer_cons s _ _ hx)), rxByte_cons hx]
  rfl

/-- Either reader stays in `SCAN` over any number of idle bytes, and changes no register but `TOK`. -/
theorem Running.run_idle {i : Instr} {s : State} {k : Nat} {later : List Byte} (h : Running i s)
    (hi : ReadsShort i s ∨ ReadsExtended i s) (hp : s.ph = .scan) (hx : s.rx = List.replicate k 0xFF#8 ++ later) :
    ∃ tok, Host.Core.run Sys2Proof.core k s = .next (s.afterIdle k tok later) := by
  induction k generalizing s with
  | zero =>
    obtain rfl : s.rx = later := hx
    exact ⟨s.tok, by simp [State.afterIdle]⟩
  | succ k ih =>
    have hstep := h.step_idle (rest := List.replicate k 0xFF#8 ++ later) hi hp hx
    obtain ⟨tok, hrun⟩ := ih (h.afterIdle 1 0xFF#8 _) hi hp rfl
    exact ⟨tok, by rw [run_succ k s _ hstep, hrun, afterIdle_one_afterIdle]⟩

/-- A run over `k` idle bytes and the byte `v`, from the row that `v` selects. -/
theorem Running.run_scan {i : Instr} {s t : State} {k : Nat} {v : Byte} {later : List Byte} (h : Running i s)
    (hi : ReadsShort i s ∨ ReadsExtended i s) (hp : s.ph = .scan) (hx : s.rx = List.replicate k 0xFF#8 ++ v :: later)
    (hrow : ∀ tok, Row i (s.afterIdle k tok (v :: later)) t) : Host.Core.run Sys2Proof.core (k + 1) s = .next t := by
  obtain ⟨tok, hrun⟩ := h.run_idle hi hp hx
  have hstep := (h.afterIdle k tok (v :: later)).step_row (by simp [State.afterIdle, hp]) (hrow tok)
  rw [run_add k 1 s _ hrun, run_succ 0 _ _ hstep, run_zero]

/-- The short reader over `k` idle bytes and a byte that is not idle: it comes to `DISC` in `k + 1` steps. -/
theorem Running.run_short {i : Instr} {s : State} {k : Nat} {v : Byte} {later : List Byte} (h : Running i s)
    (hi : ReadsShort i s) (hp : s.ph = .scan) (hx : s.rx = List.replicate k 0xFF#8 ++ v :: later) (hv : v ≠ 0xFF#8) :
    Host.Core.run Sys2Proof.core (k + 1) s = .next { s with
      rx := later, tok := v, resp := s.resp.set 0 v, respLen := .short1, ph := .disc, xn := s.xn + (k + 1),
      wire := .rx v :: (List.replicate k (.rx 0xFF#8) ++ s.wire) } :=
  h.run_scan (.inl hi) hp hx fun tok => .shortFound (s := s.afterIdle k tok (v :: later)) hi hp hv

/-- The extended reader over `k` idle bytes and a byte that is not idle: it comes to `CAP` at 1 in `k + 1` steps. -/
theorem Running.run_extended_first {i : Instr} {s : State} {k : Nat} {v : Byte} {later : List Byte} (h : Running i s)
    (hi : ReadsExtended i s) (hp : s.ph = .scan) (hx : s.rx = List.replicate k 0xFF#8 ++ v :: later)
    (hv : v ≠ 0xFF#8) :
    Host.Core.run Sys2Proof.core (k + 1) s = .next { s with
      rx := later, tok := v, resp := s.resp.set 0 v, cnt := 1#10, ph := .cap, xn := s.xn + (k + 1),
      wire := .rx v :: (List.replicate k (.rx 0xFF#8) ++ s.wire) } :=
  h.run_scan (.inr hi) hp hx fun tok => .extendedFound (s := s.afterIdle k tok (v :: later)) hi hp hv

/-- `s` after the read of the response byte `v` in `CAP` at `c`, with the answers `later` to come. -/
def State.captured (s : State) (c : Fin 5) (v : Byte) (later : List Byte) : State :=
  { s with
    rx := later, resp := s.resp.set c.val v, cnt := BitVec.ofNat 10 (c.val + 1), xn := s.xn + 1,
    wire := .rx v :: s.wire }

theorem Running.captured {i : Instr} {s : State} (h : Running i s) (c : Fin 5) (v : Byte) (later : List Byte) :
    Running i (s.captured c v later) :=
  ⟨h.host, h.busy, h.op⟩

/-- A step of `CAP` at 1 to 3. -/
theorem Running.step_captured {i : Instr} {s : State} {v : Byte} {later : List Byte} (h : Running i s)
    (hi : ReadsExtended i s) (hp : s.ph = .cap) (c : Fin 5) (h1 : 1 ≤ c.val) (h3 : c.val ≤ 3)
    (hc : s.cnt = BitVec.ofNat 10 c.val) (hx : s.rx = v :: later) : step s = .next (s.captured c v later) := by
  have hn : s.cnt.toNat = c.val := by rw [hc, BitVec.toNat_ofNat]; omega
  have hcnt : s.cnt + 1#10 = BitVec.ofNat 10 (c.val + 1) := by rw [hc, BitVec.ofNat_add]
  rw [h.step_row (by simp [hp]) (.captured hi hp c h1 h3 hn), rxByte_cons hx, rxAnswer_cons s v later hx, hcnt]
  rfl

/-- The step of `CAP` at 4 ends the capture. -/
theorem Running.step_capturedLast {i : Instr} {s : State} {v : Byte} {later : List Byte} (h : Running i s)
    (hi : ReadsExtended i s) (hp : s.ph = .cap) (hc : s.cnt = 4#10) (hx : s.rx = v :: later) :
    step s = .next { s.captured 4 v later with respLen := .ext5, ph := .disc } := by
  rw [h.step_row (by simp [hp]) (.capturedLast hi hp hc), rxByte_cons hx, rxAnswer_cons s v later hx]
  rfl

theorem set_last_four (r : Vector Byte 5) (v1 v2 v3 v4 : Byte) :
    (((r.set 1 v1).set 2 v2).set 3 v3).set 4 v4 = #v[r[0], v1, v2, v3, v4] := by
  ext j hj
  obtain rfl | rfl | rfl | rfl | rfl : j = 0 ∨ j = 1 ∨ j = 2 ∨ j = 3 ∨ j = 4 := by omega
  all_goals simp

/-- From `CAP` at 1 four steps store the coming four bytes, and `DISC` follows. -/
theorem Running.run_capture {i : Instr} {s : State} {v1 v2 v3 v4 : Byte} {later : List Byte} (h : Running i s)
    (hi : ReadsExtended i s) (hp : s.ph = .cap) (hc : s.cnt = 1#10) (hx : s.rx = v1 :: v2 :: v3 :: v4 :: later) :
    Host.Core.run Sys2Proof.core 4 s = .next { s with
      rx := later, resp := #v[s.resp[0], v1, v2, v3, v4], respLen := .ext5, cnt := 5#10, ph := .disc,
      xn := s.xn + 4, wire := .rx v4 :: .rx v3 :: .rx v2 :: .rx v1 :: s.wire } := by
  have h1 := h.captured 1 v1 (v2 :: v3 :: v4 :: later)
  have h2 := h1.captured 2 v2 (v3 :: v4 :: later)
  have h3 := h2.captured 3 v3 (v4 :: later)
  rw [run_succ 3 s _ (h.step_captured hi hp 1 (by decide) (by decide) hc hx),
    run_succ 2 _ _ (h1.step_captured hi hp 2 (by decide) (by decide) rfl rfl),
    run_succ 1 _ _ (h2.step_captured hi hp 3 (by decide) (by decide) rfl rfl),
    run_succ 0 _ _ (h3.step_capturedLast hi hp rfl rfl), run_zero, ← set_last_four]
  rfl

/-! ## RDRESP1 and RDRESP5 (42_response_reader.md R161, R163) -/

/-- The state RDRESP1 and RDRESP5 enter at acceptance. -/
def State.acceptedRead (s : State) (op : BitVec 4) (operand : BitVec 40) : State :=
  { s with host := [], curOp := op, opd := operand, busy := true, ph := .scan }

theorem step_read {s : State} {op : BitVec 4} {operand : BitVec 40}
    (hi : decodeOp op operand = .rdresp1 ∨ decodeOp op operand = .rdresp5) (hb : s.busy = false) (hp : s.ph = .idle)
    (hh : s.host = [.writeReq (op ++ operand)]) : step s = .next (s.acceptedRead op operand) := by
  rw [step_request s op operand [] hh hb]
  exact Row.exec (.enterScan _ _ hi hp)

theorem running_acceptedRead (s : State) (op : BitVec 4) (operand : BitVec 40) :
    Running (decodeOp op operand) (s.acceptedRead op operand) :=
  ⟨rfl, rfl, rfl⟩

/-- Over idle bytes alone a read does not complete: it is still in `SCAN`, with the result and the response as before. -/
theorem read_busy_while_idle {s : State} {op : BitVec 4} {operand : BitVec 40} {k : Nat} {later : List Byte}
    (hi : decodeOp op operand = .rdresp1 ∨ decodeOp op operand = .rdresp5) (hb : s.busy = false) (hp : s.ph = .idle)
    (hh : s.host = [.writeReq (op ++ operand)]) (hx : s.rx = List.replicate k 0xFF#8 ++ later) :
    ∃ t, Host.Core.run Sys2Proof.core (k + 1) s = .next t ∧ t.busy = true ∧ t.ph = .scan ∧ t.ok = s.ok ∧ t.val = s.val ∧
      t.resp = s.resp ∧ t.respLen = s.respLen ∧ t.xn = s.xn + k ∧ t.rx = later := by
  obtain ⟨tok, hrun⟩ := (running_acceptedRead s op operand).run_idle (hi.imp .inl .inl) rfl hx
  rw [run_succ k s _ (step_read hi hb hp hh), hrun]
  exact ⟨_, rfl, rfl, rfl, rfl, rfl, rfl, rfl, rfl, rfl⟩

/-- Settles O49: acceptance, the short reader to `DISC` (`Running.run_short`), and the `DISC` step, which completes. -/
theorem rdresp1Run : Obligations.Rdresp1Run := by
  unfold Obligations.Rdresp1Run
  refine ⟨?_, fun s operand k later hb hp hh hx => read_busy_while_idle (.inl rfl) hb hp hh hx⟩
  intro s operand k v d later hb hp hh hx hv
  have hrun := Running.run_short (running_acceptedRead s 0x3#4 operand) (.inl rfl) rfl hx hv
  rw [run_succ (k + 2) s _ (step_read (.inl rfl) hb hp hh), run_add (k + 1) 1 _ _ hrun,
    run_succ 0 _ _ (Running.step_row (i := .rdresp1) ⟨rfl, rfl, rfl⟩ (by simp) (.shortDone _ rfl)), run_zero]
  simp [rxByte, rxAnswer, State.acceptedRead, hb, hp, Nat.add_assoc]

/-- Settles O50: acceptance, the extended reader to `CAP` (`Running.run_extended_first`) and through it
(`Running.run_capture`), and the `DISC` step, which completes. -/
theorem rdresp5Run : Obligations.Rdresp5Run := by
  unfold Obligations.Rdresp5Run
  refine ⟨?_, fun s operand k later hb hp hh hx => read_busy_while_idle (.inr rfl) hb hp hh hx⟩
  intro s operand k v0 v1 v2 v3 v4 d later hb hp hh hx hv
  have hfirst := Running.run_extended_first (running_acceptedRead s 0x4#4 operand) (.inl rfl) rfl hx hv
  rw [run_succ (k + 6) s _ (step_read (.inr rfl) hb hp hh), run_add (k + 1) 5 _ _ hfirst,
    run_add 4 1 _ _ (Running.run_capture (i := .rdresp5) ⟨rfl, rfl, rfl⟩ (.inl rfl) rfl rfl rfl),
    run_succ 0 _ _ (Running.step_row (i := .rdresp5) ⟨rfl, rfl, rfl⟩ (by simp) (.extendedDone _ rfl)), run_zero]
  simp [rxByte, rxAnswer, State.acceptedRead, packResp, hb, hp, Nat.add_assoc]

end Sys2Proof.Machine
end

section
/-! PROOFS of the family 43_init_sequencer.md: the step table of INIT (R188) and the transition relation of `ISEQ` (R186). -/

namespace Sys2Proof.Machine

/-! ## The step table of INIT (43_init_sequencer.md R188) -/

/-- After every command but `CMD8` INIT scans as RDRESP1 does. -/
theorem exec_init_scan_short {s : State} (hp : s.ph = .scan)
    (hq : s.iseq = .sGoIdle ∨ s.iseq = .sAppCmd ∨ s.iseq = .sAppOpCond) : exec .init s = exec .rdresp1 s := by
  rcases hq with hq | hq | hq <;> simp [exec, execInit, execRdresp1, initScan, hp, hq]

/-- After `CMD8` INIT scans and captures as RDRESP5 does, at the indices that the table does not hold too. -/
theorem exec_init_read_extended {s : State} (hp : s.ph = .scan ∨ s.ph = .cap) (hq : s.iseq = .sCheckIf) :
    exec .init s = exec .rdresp5 s := by
  rcases hp with hp | hp <;> simp [exec, execInit, execRdresp5, initScan, hp, hq]

/-- Settles O31: the clauses up to the response are rows of the step tables or the steps of the two readers; the decisions in
`DISC` are those that `readShortStepTable` and `readExtendedStepTable` state of INIT. -/
theorem initStepTable : Obligations.InitStepTable := by
  unfold Obligations.InitStepTable
  intro s
  obtain ⟨-, -, -, hshort, -⟩ := readShortStepTable
  obtain ⟨-, -, -, hextended⟩ := readExtendedStepTable
  exact ⟨fun hp => (Row.enterInit s hp).exec, fun hp hq hc => (Row.preByte s hp hq hc).exec,
    fun hp hq hc => (Row.preLast s hp hq hc).exec, fun hp hc => (Row.frameByte _ s (.inr (.inl rfl)) hp hc).exec,
    fun hp hc => (Row.frameScan _ s (.inl rfl) hp hc).exec, exec_init_scan_short, exec_init_read_extended,
    fun hp => (hshort s hp).1, hextended s, fun hp => (hshort s hp).2.1, fun hp => (hshort s hp).2.2⟩

/-! ## The transition relation of `ISEQ` (43_init_sequencer.md R186) -/

/-- The steps of INIT in which the sequencer decides: acceptance, the end of the preamble, and `DISC`. -/
def AtTransition (s : State) : Prop := s.ph = .idle ∨ (s.ph = .pre ∧ s.cnt = 9#10) ∨ s.ph = .disc

/-- In every other step INIT only sends or reads: the sequencer state stays, and INIT does not complete. -/
theorem Row.init_between_transitions {s t : State} (h : Row .init s t) (hs : ¬ AtTransition s) :
    t.iseq = s.iseq ∧ t.busy = s.busy := by
  unfold AtTransition at hs
  cases h
  case done hi => simp [noExchange] at hi
  case frameDone hi => simp [Instr.isFrame] at hi
  case enterInit hp => exact absurd (.inl hp) hs
  case preLast hp _ hc => exact absurd (.inr (.inl ⟨hp, hc⟩)) hs
  case initFrame hp _ => exact absurd (.inr (.inr hp)) hs
  case initReady hp _ _ => exact absurd (.inr (.inr hp)) hs
  case commandRejected hi _ _ => simp at hi
  all_goals exact ⟨rfl, rfl⟩

/-- Settles O32: a case for each step that decides, with the seven decisions that send a frame and the one that completes;
every other step is `Row.init_between_transitions`. -/
theorem initHasNoOtherTransition : Obligations.InitHasNoOtherTransition := by
  unfold Obligations.InitHasNoOtherTransition
  intro s t h
  by_cases hs : AtTransition s
  case neg =>
    obtain ⟨hiseq, hbusy⟩ := (exec_row h).init_between_transitions hs
    simp only [AtTransition, not_or] at hs
    obtain ⟨hidle, hpre, hdisc⟩ := hs
    simp +contextual [hiseq, hbusy, hidle, hpre, hdisc]
  case pos =>
    cases exec_row h
    case enterInit hp => simp +contextual [hp]
    case preLast hp _ hc => simp +contextual [hp, hc]
    case initReady hp hq hr => simp [hp, hq, hr]
    case initFrame q code arg hp hq =>
      unfold Config.r7Check at hq
      rcases hq with ⟨hq, hr, rfl, rfl, rfl⟩ | ⟨hq, hr, rfl, rfl, rfl⟩ | ⟨hq, hr, rfl, rfl, rfl⟩ |
        ⟨hq, hr, rfl, rfl, rfl⟩ | ⟨hq, hr, rfl, rfl, rfl⟩ | ⟨hq, hr, rfl, rfl, rfl⟩ | ⟨hq, hr, rfl, rfl, rfl⟩ <;>
        simp +contextual [hp, hq, hr, Config.cmd8Arg, Config.cmd41Arg]
    -- no other row of INIT stands at a transition
    all_goals simp_all [AtTransition, noExchange]

end Sys2Proof.Machine
end

section
/-! PROOFS of the family 44_block_io.md: the step tables of WRBLK (R215) and RDBLK (R216). -/

namespace Sys2Proof.Machine

/-! ## The rows at a named index

Rows that count, with `CNT` and the byte as the step tables of the spec write them. -/

theorem Row.leadIdleAt {s : State} {c : BitVec 10} (a : BitVec 32) (hp : s.ph = .lead) (hc : s.cnt = c)
    (h : c.toNat < 2) : Row (.wrblk a) s { txByte 0xFF#8 s with cnt := c + 1#10 } := by
  subst hc
  exact .leadIdle a s hp h

theorem Row.trailByteAt {s : State} {c : BitVec 10} (a : BitVec 32) (hp : s.ph = .trail) (hc : s.cnt = c)
    (h : c.toNat < 2) : Row (.rdblk a) s { rxByte s with cnt := c + 1#10 } := by
  subst hc
  exact .trailByte a s hp h

/-- `DATA` of WRBLK sends the byte that the host's window shows at `CNT` (44_block_io.md R206). -/
theorem Row.writeByteAt {s : State} (a : BitVec 32) (c : Fin 512) (h : c.val ≤ 510) (hp : s.ph = .data)
    (hc : s.cnt.toNat = c.val) : Row (.wrblk a) s { txByte (s.window .wr c) s with cnt := s.cnt + 1#10 } := by
  have hrow := Row.writeByte a s hp (by omega)
  rwa [hc] at hrow

/-! ## The answers that decide (44_block_io.md R204, R211) -/

theorem isAccepted_iff (b : Byte) : isAccepted b = true ↔ b = Config.wrAccept := beq_iff_eq

theorem Row.writeSucceeded {s : State} (a : BitVec 32) (hp : s.ph = .wresp) (hx : rxAnswer s = Config.wrAccept) :
    Row (.wrblk a) s { rxByte s with tok := rxAnswer s, ok := true, val := 0#40, busy := false, ph := .idle } := by
  have hrow := Row.writeEnd a s hp
  rwa [(isAccepted_iff _).mpr hx] at hrow

theorem Row.writeRefused {s : State} (a : BitVec 32) (hp : s.ph = .wresp) (hx : rxAnswer s ≠ Config.wrAccept) :
    Row (.wrblk a) s { rxByte s with tok := rxAnswer s, ok := false, val := 0#40, busy := false, ph := .idle } := by
  have hrow := Row.writeEnd a s hp
  rwa [Bool.eq_false_iff.mpr ((isAccepted_iff _).not.mpr hx)] at hrow

/-- An idle byte before the token leaves only `TOK` behind. -/
theorem Row.tokenSkipped {s : State} (a : BitVec 32) (hp : s.ph = .token) (hx : rxAnswer s = 0xFF#8) :
    Row (.rdblk a) s { rxByte s with tok := 0xFF#8 } := by
  have hrow := Row.tokenIdle a s hp ((isIdleByte_iff _).mpr hx)
  simpa only [readTok, rxByte, hx, ← hp] using hrow

theorem Row.tokenFound {s : State} (a : BitVec 32) (hp : s.ph = .token) (hx : rxAnswer s = 0xFE#8) :
    Row (.rdblk a) s { rxByte s with tok := 0xFE#8, sel := !s.sel, cnt := 0#10, ph := .data } := by
  have hrow := Row.tokenHit a s hp hx
  simpa only [readTok, hx] using hrow

/-! ## The store of a received byte (44_block_io.md R212) -/

/-- A store shows at its index in the window of the buffer `SEL` names, and nowhere else in the three windows. -/
theorem window_storeRx (s : State) (c : Fin 512) (v : Byte) (b : BufId) (i : Fin 512) :
    (storeRx c.val v s).window b i = if b = rxBufId s.sel ∧ i = c then v else s.window b i := by
  by_cases hi : i = c
  · subst hi
    cases b <;> cases hs : s.sel <;> simp [State.window, rxBufId, hs, Memory.byteAt_write_same]
  · have hne : i.val ≠ c.val := Fin.val_ne_of_ne hi
    cases b <;> cases hs : s.sel <;> simp [State.window, hs, hi, Memory.byteAt_write_other _ _ _ _ _ hne]

/-- A step of RDBLK in `DATA` at any index of the block: the store is its only change to the windows. -/
theorem exec_rdblk_data {s : State} (a : BitVec 32) (c : Fin 512) (hp : s.ph = .data) (hc : s.cnt.toNat = c.val) :
    ∃ t, exec (.rdblk a) s = .next t ∧
      (∀ b i, t.window b i = if b = rxBufId s.sel ∧ i = c then rxAnswer s else s.window b i) ∧
      (c.val ≤ 510 → t = { rxByte s with rxA := t.rxA, rxB := t.rxB, cnt := s.cnt + 1#10 }) ∧
      (c.val = 511 → t = { rxByte s with rxA := t.rxA, rxB := t.rxB, cnt := 0#10, ph := .trail }) := by
  have hw := window_storeRx (rxByte s) c (rxAnswer s)
  rcases (by omega : c.val ≤ 510 ∨ c.val = 511) with h | h
  · have hrow := Row.readByte a s hp (by omega)
    rw [hc] at hrow
    exact ⟨_, hrow.exec, hw, fun _ => rfl, by omega⟩
  · have hrow := Row.readLast a s hp (BitVec.eq_of_toNat_eq (hc.trans h))
    rw [← h] at hrow
    exact ⟨_, hrow.exec, hw, by omega, fun _ => rfl⟩

/-! ## The step tables -/

/-- Settles O33: each clause is a row of the step tables. -/
theorem wrblkStepTable : Obligations.WrblkStepTable := by
  unfold Obligations.WrblkStepTable
  intro a s
  have hr : ReadsShort (.wrblk a) s := .inr (.inr (.inl ⟨a, rfl⟩))
  refine ⟨?accept, ?frame, ?frameLast, ?scanIdle, ?scanFound, ?rejected, ?accepted, ?lead0, ?lead1, ?token, ?data,
    ?dataLast, ?succeeded, ?refused⟩
  case accept => exact fun hp => (Row.enterWrite a s hp).exec
  case frame => exact fun hp hc => (Row.frameByte _ s (.inr (.inr (.inl ⟨a, rfl⟩))) hp hc).exec
  case frameLast => exact fun hp hc => (Row.frameScan _ s (.inr (.inl ⟨a, rfl⟩)) hp hc).exec
  case scanIdle => exact fun hp hx => (Row.skipIdle (.inl hr) hp hx).exec
  case scanFound => exact fun hp hx => (Row.shortFound hr hp hx).exec
  case rejected => exact fun hp hv => (Row.commandRejected _ s (.inl ⟨a, rfl⟩) hp hv).exec
  case accepted => exact fun hp hv => (Row.writeAccepted a s hp hv).exec
  case lead0 => exact fun hp hc => (Row.leadIdleAt a hp hc (by decide)).exec
  case lead1 => exact fun hp hc => (Row.leadIdleAt a hp hc (by decide)).exec
  case token => exact fun hp hc => (Row.leadToken a s hp hc).exec
  case data => exact fun c h hp hc => (Row.writeByteAt a c h hp hc).exec
  case dataLast => exact fun hp hc => (Row.writeLast a s hp hc).exec
  case succeeded => exact fun hp hx => (Row.writeSucceeded a hp hx).exec
  case refused => exact fun hp hx => (Row.writeRefused a hp hx).exec

/-- Settles O34: each clause is a row of the step tables; what `DATA` leaves in the windows is `exec_rdblk_data`. -/
theorem rdblkStepTable : Obligations.RdblkStepTable := by
  unfold Obligations.RdblkStepTable
  intro a s
  have hr : ReadsShort (.rdblk a) s := .inr (.inr (.inr ⟨a, rfl⟩))
  refine ⟨?accept, ?frame, ?frameLast, ?scanIdle, ?scanFound, ?rejected, ?accepted, ?tokenIdle, ?tokenBad, ?tokenFound,
    ?data, ?trail0, ?trail1, ?trailLast⟩
  case accept => exact fun hp => (Row.enterRead a s hp).exec
  case frame => exact fun hp hc => (Row.frameByte _ s (.inr (.inr (.inr (.inl ⟨a, rfl⟩)))) hp hc).exec
  case frameLast => exact fun hp hc => (Row.frameScan _ s (.inr (.inr (.inl ⟨a, rfl⟩))) hp hc).exec
  case scanIdle => exact fun hp hx => (Row.skipIdle (.inl hr) hp hx).exec
  case scanFound => exact fun hp hx => (Row.shortFound hr hp hx).exec
  case rejected => exact fun hp hv => (Row.commandRejected _ s (.inr ⟨a, rfl⟩) hp hv).exec
  case accepted => exact fun hp hv => (Row.readAccepted a s hp hv).exec
  case tokenIdle => exact fun hp hx => (Row.tokenSkipped a hp hx).exec
  case tokenBad => exact fun hp hx hn => (Row.tokenBad a s hp (isIdleByte_of_ne hx) hn).exec
  case tokenFound => exact fun hp hx => (Row.tokenFound a hp hx).exec
  case data =>
    intro c hp hc
    obtain ⟨t, hs, hw, hmore, hlast⟩ := exec_rdblk_data a c hp hc
    refine ⟨t, hs, ?_, ?_, ?_, hmore, hlast⟩
    · simp [hw, rxBufId]
    · intro i hi
      simp [hw, hi]
    · intro i
      cases hsel : s.sel <;> simp [hw, rxBufId, hsel]
  case trail0 => exact fun hp hc => (Row.trailByteAt a hp hc (by decide)).exec
  case trail1 => exact fun hp hc => (Row.trailByteAt a hp hc (by decide)).exec
  case trailLast => exact fun hp hc => (Row.trailLast a s hp hc).exec

end Sys2Proof.Machine
end

section
/-! PROOFS of the encoding statements: decoder and encoder agree (30_encoding.md R101, R109, R122), and the word that
`withFetchWord` places is the one the next step runs (log 13). -/

namespace Sys2Proof

/-! ## Decode of encode (30_encoding.md R109 to R117, R122) -/

/-- The four constant frames are the frames of their code and argument, with the checksum of R142. -/
theorem constantFrames_eq_frameOf :
    0x400000000095#48 = frameOf Config.cmd0 0#32 (Machine.frameCrc Config.cmd0 0#32) ∧
    0x48000001AA87#48 = frameOf Config.cmd8 Config.cmd8Arg (Machine.frameCrc Config.cmd8 Config.cmd8Arg) ∧
    0x770000000065#48 = frameOf Config.cmd55 0#32 (Machine.frameCrc Config.cmd55 0#32) ∧
    0x694000000077#48 = frameOf Config.cmd41 Config.cmd41Arg (Machine.frameCrc Config.cmd41 Config.cmd41Arg) := by
  decide +kernel

/-- A frame word determines its three fields. -/
theorem frameOf_inj {code code' : BitVec 6} {arg arg' : BitVec 32} {crc crc' : BitVec 7}
    (h : frameOf code arg crc = frameOf code' arg' crc') : code = code' ∧ arg = arg' ∧ crc = crc' := by
  have hcode := congrArg (·.extractLsb' 40 6) h
  have harg := congrArg (·.extractLsb' 8 32) h
  have hcrc := congrArg (·.extractLsb' 1 7) h
  simp only [frameOf_code, frameOf_arg, frameOf_crc] at hcode harg hcrc
  exact ⟨hcode, harg, hcrc⟩

theorem decode_frameOf (code : BitVec 6) (arg : BitVec 32) (crc : BitVec 7) :
    decode (frameOf code arg crc) = .ok (decodeFrame (frameOf code arg crc)) :=
  have hends := Laws.EncodeShape.frameOf_ends code arg crc
  decode_frame _ hends.1 hends.2

/-- A frame whose code and argument are not those of a constant frame is none of the four. -/
theorem decodeFrame_of_not_constant {code : BitVec 6} {arg : BitVec 32} (crc : BitVec 7)
    (h0 : ¬ (code = Config.cmd0 ∧ arg = 0#32)) (h8 : ¬ (code = Config.cmd8 ∧ arg = Config.cmd8Arg))
    (h55 : ¬ (code = Config.cmd55 ∧ arg = 0#32)) (h41 : ¬ (code = Config.cmd41 ∧ arg = Config.cmd41Arg)) :
    decodeFrame (frameOf code arg crc) =
      if code = Config.cmd17 then .cmd17 arg crc else if code = Config.cmd24 then .cmd24 arg crc
      else .cmdn code arg crc := by
  obtain ⟨e0, e8, e55, e41⟩ := constantFrames_eq_frameOf
  have hne : ∀ {code' arg' crc'}, ¬ (code = code' ∧ arg = arg') → frameOf code arg crc ≠ frameOf code' arg' crc' :=
    fun hn heq => hn ⟨(frameOf_inj heq).1, (frameOf_inj heq).2.1⟩
  simp only [decodeFrame, e0, e8, e55, e41, hne h0, hne h8, hne h55, hne h41, if_false, frameOf_code, frameOf_arg,
    frameOf_crc]

theorem decodeFrame_cmd17 (arg : BitVec 32) (crc : BitVec 7) :
    decodeFrame (frameOf Config.cmd17 arg crc) = .cmd17 arg crc := by
  rw [decodeFrame_of_not_constant crc (by simp [Config.cmd17, Config.cmd0]) (by simp [Config.cmd17, Config.cmd8])
    (by simp [Config.cmd17, Config.cmd55]) (by simp [Config.cmd17, Config.cmd41]), if_pos rfl]

theorem decodeFrame_cmd24 (arg : BitVec 32) (crc : BitVec 7) :
    decodeFrame (frameOf Config.cmd24 arg crc) = .cmd24 arg crc := by
  rw [decodeFrame_of_not_constant crc (by simp [Config.cmd24, Config.cmd0]) (by simp [Config.cmd24, Config.cmd8])
    (by simp [Config.cmd24, Config.cmd55]) (by simp [Config.cmd24, Config.cmd41]), if_neg (by decide), if_pos rfl]

/-- A frame that is none of the six named rows is read back as the general frame. -/
theorem decodeFrame_general {code : BitVec 6} {arg : BitVec 32} (crc : BitVec 7) (h : namedFrame code arg = false) :
    decodeFrame (frameOf code arg crc) = .cmdn code arg crc := by
  simp only [namedFrame, Bool.or_eq_false_iff, Bool.and_eq_false_imp, beq_iff_eq, beq_eq_false_iff_ne] at h
  obtain ⟨⟨⟨⟨⟨h17, h24⟩, h0⟩, h8⟩, h55⟩, h41⟩ := h
  rw [decodeFrame_of_not_constant crc (not_and.mpr h0) (not_and.mpr h8) (not_and.mpr h55) (not_and.mpr h41),
    if_neg h17, if_neg h24]

/-- The word of a request decodes to the operation of its two fields. -/
theorem decode_encode_request {i : Instr} {op : BitVec 4} {operand : BitVec 40}
    (he : encode i = tableOfReq (reqOf op operand)) (hd : decodeOp op operand = i) : decode (encode i) = .ok i := by
  rw [he, decode_request, hd]

/-- Settles O10: a request by its two fields (`decode_encode_request`), a frame by its three (`decode_frameOf`). -/
theorem decodeOfEncodeIsTheInstruction : Obligations.DecodeOfEncodeIsTheInstruction := by
  unfold Obligations.DecodeOfEncodeIsTheInstruction
  intro i hwf
  cases i
  case crc7upd acc byte =>
    refine decode_encode_request rfl ?_
    simp (disch := omega) only [decodeOp, BitVec.extractLsb'_append_eq_of_add_le, BitVec.extractLsb'_append_eq_of_le,
      Nat.reduceSub, BitVec.extractLsb'_eq_self]
  case sendcmd code arg =>
    refine decode_encode_request rfl ?_
    simp (disch := omega) only [decodeOp, BitVec.extractLsb'_append_eq_of_add_le, BitVec.extractLsb'_append_eq_of_le,
      Nat.reduceSub, BitVec.extractLsb'_eq_self]
  case match1 | wrblk | rdblk =>
    refine decode_encode_request rfl ?_
    simp (disch := omega) only [decodeOp, BitVec.extractLsb'_append_eq_of_add_le, BitVec.extractLsb'_eq_self]
  case cmd0 | cmd8 | cmd55 | cmd41 => decide
  case cmd17 arg crc => exact (decode_frameOf _ arg crc).trans (congrArg _ (decodeFrame_cmd17 arg crc))
  case cmd24 arg crc => exact (decode_frameOf _ arg crc).trans (congrArg _ (decodeFrame_cmd24 arg crc))
  case cmdn code arg crc =>
    have hnamed : namedFrame code arg = false := by
      simp only [Instr.wf, Bool.and_eq_true, Bool.not_eq_true'] at hwf
      exact hwf.2
    exact (decode_frameOf code arg crc).trans (congrArg _ (decodeFrame_general crc hnamed))
  all_goals exact decode_encode_request rfl rfl

/-! ## The decoder on any word (30_encoding.md R101, R122) -/

/-- Settles O11: such a word is the frame of its fields, and the decoder keeps all of them. -/
theorem encodeOfDecodedFrameIsTheWord : Obligations.EncodeOfDecodedFrameIsTheWord := by
  unfold Obligations.EncodeOfDecodedFrameIsTheWord
  intro w hs he
  exact ⟨decodeFrame w, decode_frame w hs he, isFrame_decodeFrame w, encode_decodeFrame w hs he⟩

/-- Settles O12: the three tests of the decoder, one after the other; a frame's start bits exclude a request's. -/
theorem decoderRefusesExactlyOtherWords : Obligations.DecoderRefusesExactlyOtherWords := by
  unfold Obligations.DecoderRefusesExactlyOtherWords
  intro w
  have hbit : w.extractLsb' 0 1 = 0#1 ↔ ¬ w.extractLsb' 0 1 = 1#1 := by
    generalize w.extractLsb' 0 1 = b
    revert b
    decide
  by_cases htop : w.extractLsb' 44 4 = 0#4
  · have hs : w.extractLsb' 46 2 ≠ 0b01#2 := fun hs => top_ne_zero_of_start w hs htop
    simp [decode, htop, hs]
  by_cases hs : w.extractLsb' 46 2 = 0b01#2
  · by_cases he : w.extractLsb' 0 1 = 1#1 <;> simp [decode, htop, hs, hbit, he]
  · simp [decode, htop, hs]

/-- A frame with the checksum of R142 is well-formed, whichever row it decodes to. -/
theorem wf_decodeFrame_built (code : BitVec 6) (arg : BitVec 32) :
    (decodeFrame (frameOf code arg (Machine.frameCrc code arg))).wf = true := by
  by_cases hnamed : namedFrame code arg = false
  · simp [decodeFrame_general _ hnamed, Instr.wf, hnamed]
  obtain ⟨e0, e8, e55, e41⟩ := constantFrames_eq_frameOf
  simp only [namedFrame, Bool.not_eq_false, Bool.or_eq_true, Bool.and_eq_true, beq_iff_eq] at hnamed
  rcases hnamed with ((((rfl | rfl) | ⟨rfl, rfl⟩) | ⟨rfl, rfl⟩) | ⟨rfl, rfl⟩) | ⟨rfl, rfl⟩
  · simp [decodeFrame_cmd17, Instr.wf]
  · simp [decodeFrame_cmd24, Instr.wf]
  · rw [← e0]; rfl
  · rw [← e8]; rfl
  · rw [← e55]; rfl
  · rw [← e41]; rfl

/-- Settles O13: ten closed words, decoded bit by bit. -/
theorem sampleWordsDecode : Obligations.SampleWordsDecode := by
  unfold Obligations.SampleWordsDecode
  decide

namespace Machine

/-! ## The frames that `SendCommand` builds (30_encoding.md R101, R117) -/

/-- Settles O15: the built bytes are a frame word with the right checksum, and its row encodes to that word. -/
theorem builtFrameDecodesWellFormed : Obligations.BuiltFrameDecodesWellFormed := by
  unfold Obligations.BuiltFrameDecodesWellFormed
  intro code arg
  obtain ⟨hs, he⟩ := Laws.EncodeShape.frameOf_ends code arg (frameCrc code arg)
  rw [wordOfBytes_buildFrame]
  exact ⟨_, decode_frame _ hs he, isFrame_decodeFrame _, wf_decodeFrame_built code arg,
    by rw [encode_decodeFrame _ hs he, bytesOfWord_frameOf]⟩

/-- Settles O17: six closed frames; the checksums are computed by the bit-serial loop of R140. -/
theorem sequencerFramesByteForByte : Obligations.SequencerFramesByteForByte := by
  unfold Obligations.SequencerFramesByteForByte
  decide +kernel

/-! ## The word that `withFetchWord` places (log 13) -/

theorem decode_of_decodeTableWord {nbits w : Nat} {i : Instr} (h : decodeTableWord nbits w = some i) :
    decode (tableWordOf nbits w) = .ok i := by
  unfold decodeTableWord at h
  split at h
  · split at h
    · rename_i hd; rw [hd, Option.some.inj h]
    · simp at h
  · simp at h

/-- What a word decodes to is a frame row unless the top four bits are 0; then it is the request in the low 44 bits. -/
theorem isFrame_of_decode {v : TableWord} {i : Instr} (h : decode v = .ok i) :
    i.isFrame = !decide (v.extractLsb' 44 4 = 0#4) ∧
      (v.extractLsb' 44 4 = 0#4 → decodeReq (v.extractLsb' 0 44) = i) := by
  by_cases htop : v.extractLsb' 44 4 = 0#4
  · simp only [decode, htop, if_true, Decoded.ok.injEq] at h
    subst h
    simp [htop, decodeReq, isFrame_decodeOp]
  · simp only [decode, htop, if_false] at h
    split at h
    · split at h
      · cases h
        simp [htop, isFrame_decodeFrame]
      · simp at h
    · simp at h

theorem reqOp_request (v : TableWord) : reqOp (v.extractLsb' 0 44) = v.extractLsb' 40 4 :=
  BitVec.extractLsb'_extractLsb'_of_le (by decide)

theorem reqOperand_request (v : TableWord) : reqOperand (v.extractLsb' 0 44) = v.extractLsb' 0 40 :=
  BitVec.extractLsb'_extractLsb'_of_le (by decide)

/-- A placed request is the host's write of `REQ` to an idle core. -/
theorem step_loadWord_request {v : TableWord} (s : State) (htop : v.extractLsb' 44 4 = 0#4) :
    step (loadWord v s) = exec (decodeReq (v.extractLsb' 0 44))
      { s with busy := true, ph := .idle, curOp := v.extractLsb' 40 4, opd := v.extractLsb' 0 40 } := by
  simp [loadWord, htop, step, hostStep, writeReq, accept, reqOp_request, reqOperand_request]

/-- A placed frame is the one a SENDCMD is about to send. -/
theorem step_loadWord_frame {v : TableWord} {i : Instr} (s : State) (htop : v.extractLsb' 44 4 ≠ 0#4)
    (hd : decode v = .ok i) :
    step (loadWord v s) = exec i
      { s with busy := true, ph := .frame, cnt := 0#10, frm := bytesOfWord v, curOp := 0x2#4,
               opd := 0#2 ++ (v.extractLsb' 40 6 : BitVec 6) ++ (v.extractLsb' 8 32 : BitVec 32) } := by
  simp [loadWord, htop, step, hostStep, coreStep, fetchWord, hd]

/-- Settles O6: by its top four bits the word is placed as a request or as a frame. -/
theorem loadedWordIsExecutedNext : Obligations.LoadedWordIsExecutedNext := by
  unfold Obligations.LoadedWordIsExecutedNext
  intro s nbits w i h v
  have hd : decode v = .ok i := decode_of_decodeTableWord h
  obtain ⟨hframe, hreq⟩ := isFrame_of_decode hd
  change (_ → step (loadWord v s) = _) ∧ (_ → step (loadWord v s) = _)
  rw [hframe]
  constructor
  · intro htop
    have htop : v.extractLsb' 44 4 = 0#4 := by simpa using htop
    rw [step_loadWord_request s htop, hreq htop]
  · intro htop
    exact step_loadWord_frame s (by simpa using htop) hd

end Machine

end Sys2Proof
end

section
/-! PROOFS of the frame statements: what each instruction leaves alone. Each is a case analysis over the rows of the step
tables. -/

namespace Sys2Proof.Machine

open Sys2Proof.Safety

/-! ## Buffers and selector (20_memory.md R62, 10_state.md R21 to R23) -/

/-- A row stores one received byte, RDBLK's at `CNT` in `DATA`, or leaves the three windows alone. -/
theorem Row.window_cases {i : Instr} {s t : State} (h : Row i s t) :
    (∀ b k, t.window b k = s.window b k) ∨
    ∃ (a : BitVec 32) (c : Fin 512), i = .rdblk a ∧ s.ph = .data ∧ c.val = s.cnt.toNat ∧
      ∀ b k, t.window b k = if b = rxBufId s.sel ∧ k = c then rxAnswer s else s.window b k := by
  cases h
  case readByte a hp hc =>
    exact .inr ⟨a, ⟨s.cnt.toNat, by omega⟩, rfl, hp, rfl, window_storeRx (rxByte s) ⟨s.cnt.toNat, by omega⟩ (rxAnswer s)⟩
  case readLast a hp hc => exact .inr ⟨a, 511, rfl, hp, by rw [hc]; rfl, window_storeRx (rxByte s) 511 (rxAnswer s)⟩
  all_goals exact .inl fun b k => by cases b <;> rfl

/-- Settles O35: the one store (`Row.window_cases`) is at `CNT` of the buffer `SEL` names. -/
theorem buffersUnchangedButTheStoredByte : Obligations.BuffersUnchangedButTheStoredByte := by
  unfold Obligations.BuffersUnchangedButTheStoredByte
  intro i s t h
  rcases (exec_row h).window_cases with hw | ⟨a, c, rfl, hp, hc, hw⟩
  · exact ⟨hw .wr, fun k _ => hw .rxA k, fun k _ => hw .rxB k⟩
  · refine ⟨fun k => ?_, fun k hk => ?_, fun k hk => ?_⟩
    · rw [hw, if_neg]
      cases s.sel <;> simp [rxBufId]
    · rw [hw, if_neg]
      rintro ⟨hb, rfl⟩
      exact hk ⟨⟨a, rfl⟩, hp, by cases hs : s.sel <;> simp_all [rxBufId], hc⟩
    · rw [hw, if_neg]
      rintro ⟨hb, rfl⟩
      exact hk ⟨⟨a, rfl⟩, hp, by cases hs : s.sel <;> simp_all [rxBufId], hc⟩

/-- Settles O36: the row that sees the token toggles `SEL`, and every other row leaves it. -/
theorem selectorTogglesOnlyOnTheToken : Obligations.SelectorTogglesOnlyOnTheToken := by
  unfold Obligations.SelectorTogglesOnlyOnTheToken
  intro i s t h
  constructor
  · rintro ⟨⟨a, rfl⟩, hp, hx⟩
    rw [(Row.tokenFound a hp hx).exec] at h
    cases h
    rfl
  · intro hn
    cases exec_row h
    case tokenHit a hp hx => exact absurd ⟨⟨a, rfl⟩, hp, hx⟩ hn
    all_goals rfl

/-! ## Sequencer state and chip-select (10_state.md R26, R27) -/

theorem Row.sequencer_eq {i : Instr} {s t : State} (h : Row i s t) (hi : i ≠ .init) :
    t.iseq = s.iseq ∧ t.csn = s.csn := by
  cases h
  case enterInit | preLast | initFrame | initReady => exact absurd rfl hi
  all_goals exact ⟨rfl, rfl⟩

/-- INIT raises chip-select at acceptance and lowers it at the end of the preamble (43_init_sequencer.md R181). -/
theorem Row.init_csn {s t : State} (h : Row .init s t) :
    t.csn = if s.ph = .idle then true else if s.ph = .pre ∧ s.cnt = 9#10 then false else s.csn := by
  have keeps : s.ph ≠ .idle → ¬ (s.ph = .pre ∧ s.cnt = 9#10) → t.csn = s.csn →
      t.csn = if s.ph = .idle then true else if s.ph = .pre ∧ s.cnt = 9#10 then false else s.csn :=
    fun hidle hpre hk => by rw [if_neg hidle, if_neg hpre, hk]
  cases h
  case done hi => cases hi
  case frameDone hi => simp [Instr.isFrame] at hi
  case commandRejected hi _ _ => simp at hi
  case enterInit hp => rw [if_pos hp]; rfl
  case preLast hp hq hc => rw [if_neg (by simp [hp]), if_pos ⟨hp, hc⟩]; rfl
  case preByte hp hq hc => exact keeps (by simp [hp]) (fun h9 => by simp [h9.2] at hc) rfl
  case enterScan hi hp => simp at hi
  all_goals exact keeps (by simp [*]) (by simp [*]) rfl

/-- Settles O37: `Row.sequencer_eq` and `Row.init_csn`. -/
theorem onlyInitWritesSequencerAndChipSelect : Obligations.OnlyInitWritesSequencerAndChipSelect := by
  unfold Obligations.OnlyInitWritesSequencerAndChipSelect
  intro i s t h
  exact ⟨(exec_row h).sequencer_eq, fun hi => (hi ▸ exec_row h).init_csn⟩

/-! ## Results (10_state.md R31, R32) -/

/-- A row completes, which clears `BUSY`, or goes on with `OK`, `VAL` and `BUSY` as before. -/
theorem Row.completes_or_goes_on {i : Instr} {s t : State} (h : Row i s t) :
    (t.ph = .idle ∧ t.busy = false) ∨ (t.ph ≠ .idle ∧ t.ok = s.ok ∧ t.val = s.val ∧ t.busy = s.busy) := by
  cases h
  case done | frameDone | shortDone | extendedDone | initReady | commandRejected | writeEnd | tokenBad | trailLast =>
    exact .inl ⟨rfl, rfl⟩
  all_goals exact .inr ⟨by simp [*], rfl, rfl, rfl⟩

/-- Settles O38: the two kinds of row of `Row.completes_or_goes_on`. -/
theorem resultsWrittenOnlyOnCompletion : Obligations.ResultsWrittenOnlyOnCompletion := by
  unfold Obligations.ResultsWrittenOnlyOnCompletion
  intro i s t h
  rcases (exec_row h).completes_or_goes_on with ⟨hp, hb⟩ | ⟨hp, hkept⟩
  · exact ⟨fun _ => hb, fun hn => absurd hp hn⟩
  · exact ⟨fun hn => absurd hn hp, fun _ => hkept⟩

/-! ## Responses (10_state.md R24, R25) -/

/-- A row captures at most one byte of `RESP`: `RESP[0]` in `SCAN`, `RESP[CNT]` in `CAP`. -/
theorem Row.resp_cases {i : Instr} {s t : State} (h : Row i s t) :
    (t.resp = s.resp ∧ t.respLen = s.respLen) ∨
    ((i = .rdresp1 ∨ i = .rdresp5 ∨ i = .init ∨ (∃ a, i = .wrblk a) ∨ (∃ a, i = .rdblk a)) ∧
      ∃ c, (s.ph = .scan ∧ c = 0 ∨ s.ph = .cap ∧ c = s.cnt.toNat) ∧ t.resp = s.resp.setIfInBounds c (rxAnswer s)) := by
  cases h
  case scanShortHit hp hx hi => exact .inr ⟨by tauto, 0, .inl ⟨hp, rfl⟩, rfl⟩
  case scanExtHit hp hx hi => exact .inr ⟨by tauto, 0, .inl ⟨hp, rfl⟩, rfl⟩
  case capByte hp h1 h3 hi => exact .inr ⟨by tauto, _, .inr ⟨hp, rfl⟩, rfl⟩
  case capLast hp hc hi => exact .inr ⟨by tauto, 4, .inr ⟨hp, by rw [hc]; rfl⟩, rfl⟩
  all_goals exact .inl ⟨rfl, rfl⟩

/-- Settles O39: a captured byte (`Row.resp_cases`) is at the index of the phase. -/
theorem responseWrittenOnlyByCaptures : Obligations.ResponseWrittenOnlyByCaptures := by
  unfold Obligations.ResponseWrittenOnlyByCaptures
  intro i s t h
  rcases (exec_row h).resp_cases with ⟨hr, hl⟩ | ⟨hi, c, hc, hr⟩
  · exact ⟨fun _ => ⟨hr, hl⟩, fun _ k _ => by simp only [hr], fun _ k _ => by simp only [hr]⟩
  · refine ⟨fun hn => absurd ⟨hc.imp And.left And.left, hi⟩ hn, fun hp k hk => ?_, fun hp k hk => ?_⟩
    · have hne : c ≠ k.val := by rcases hc with ⟨-, rfl⟩ | ⟨hp', -⟩ <;> simp_all [Ne.symm]
      simp [hr, hne]
    · have hne : c ≠ k.val := by rcases hc with ⟨hp', -⟩ | ⟨-, rfl⟩ <;> simp_all [Ne.symm]
      simp [hr, hne]

/-! ## Latches (10_state.md R28, R33, 41_command_framer.md R151) -/

theorem Row.latches_eq {i : Instr} {s t : State} (h : Row i s t) :
    t.curOp = s.curOp ∧ t.opd = s.opd ∧ t.host = s.host := by
  cases h <;> exact ⟨rfl, rfl, rfl⟩

theorem Row.frm_cases {i : Instr} {s t : State} (h : Row i s t) :
    t.frm = s.frm ∨ (t.ph = .frame ∧ t.cnt = 0#10 ∧ s.ph ≠ .frame) := by
  cases h
  case enterSend | enterWrite | enterRead | preLast | initFrame => exact .inr ⟨rfl, rfl, by simp [*]⟩
  all_goals exact .inl rfl

/-- Settles O40: `Row.latches_eq` and `Row.frm_cases`. -/
theorem latchesConstantForTheOperation : Obligations.LatchesConstantForTheOperation := by
  unfold Obligations.LatchesConstantForTheOperation
  intro i s t h
  obtain ⟨hop, hopd, hhost⟩ := (exec_row h).latches_eq
  exact ⟨hop, hopd, hhost, (exec_row h).frm_cases.resolve_left⟩

/-! ## Exchanges (10_state.md R38, 70_reset_and_hazards.md R280) -/

/-- A row sends one byte, reads one, or makes no exchange. -/
theorem Row.exchange_cases {i : Instr} {s t : State} (h : Row i s t) :
    ((noExchange i = true ∨ s.ph = .idle) ∧ t.xn = s.xn ∧ t.rx = s.rx ∧
      (t.wire = s.wire ∨ t.wire = .csHigh :: s.wire)) ∨
    (s.ph ≠ .idle ∧ t.xn = s.xn + 1 ∧ t.rx = s.rx ∧
      ∃ b, t.wire = .tx b :: s.wire ∨ t.wire = .csLow :: .tx b :: s.wire) ∨
    (s.ph ≠ .idle ∧ t.xn = s.xn + 1 ∧ t.rx = s.rx.tail ∧ t.wire = .rx (rxAnswer s) :: s.wire) := by
  cases h
  case done hi => exact .inl ⟨.inl hi, rfl, rfl, .inl rfl⟩
  case enterSend hp | enterWrite hp | enterRead hp | enterScan hp => exact .inl ⟨.inr hp, rfl, rfl, .inl rfl⟩
  case enterInit hp => exact .inl ⟨.inr hp, rfl, rfl, .inr rfl⟩
  case frameByte | frameDone | frameScan | preByte | leadIdle | leadToken | writeByte | writeLast =>
    exact .inr (.inl ⟨by simp [*], rfl, rfl, _, .inl rfl⟩)
  case preLast => exact .inr (.inl ⟨by simp [*], rfl, rfl, _, .inr rfl⟩)
  all_goals exact .inr (.inr ⟨by simp [*], rfl, rfl, rfl⟩)

/-- An operation without an exchange has one row, in which the card's stream is not advanced. -/
theorem Row.xn_of_noExchange {i : Instr} {s t : State} (h : Row i s t) (hi : noExchange i = true) : t.xn = s.xn := by
  have heq := h.exec
  rw [(Row.done i s hi).exec] at heq
  cases heq
  rfl

theorem noExchange_iff (i : Instr) :
    noExchange i = true ↔ i = .nop ∨ (∃ a y, i = .crc7upd a y) ∨ (∃ e, i = .match1 e) ∨ (∃ e, i = .match5 e) ∨
      i = .reservedA ∨ i = .reservedB ∨ i = .reservedC ∨ i = .reservedD ∨ i = .reservedE ∨ i = .reservedF := by
  cases i <;> simp [noExchange]

/-- Settles O41: the events of the three kinds of row (`Row.exchange_cases`). -/
theorem oneExchangeAStep : Obligations.OneExchangeAStep := by
  unfold Obligations.OneExchangeAStep
  intro i s t h
  have hr := exec_row h
  have hcond := noExchange_iff i
  have hnone : t.xn = s.xn + 1 → noExchange i ≠ true := fun hx hi => by
    have := hr.xn_of_noExchange hi
    omega
  simp only [← or_assoc] at hcond ⊢
  simp only [← hcond]
  rcases hr.exchange_cases with ⟨hi, hx, hrx, hw | hw⟩ | ⟨hp, hx, hrx, b, hw | hw⟩ | ⟨hp, hx, hrx, hw⟩
  · exact ⟨[], hw, hx, by rw [if_pos hi]; rfl, .inl ⟨hrx, by simp⟩⟩
  · exact ⟨[.csHigh], hw, hx, by rw [if_pos hi]; rfl, .inl ⟨hrx, by simp⟩⟩
  · exact ⟨[.tx b], hw, hx, by rw [if_neg (by simp [hp, hnone hx])]; rfl, .inl ⟨hrx, by simp⟩⟩
  · exact ⟨[.csLow, .tx b], hw, hx, by rw [if_neg (by simp [hp, hnone hx])]; rfl, .inl ⟨hrx, by simp⟩⟩
  · exact ⟨[.rx (rxAnswer s)], hw, hx, by rw [if_neg (by simp [hp, hnone hx])]; rfl, .inr ⟨hrx, rfl⟩⟩

/-! ## Noninterference (20_memory.md R62, R71) -/

/-- The phases of `i` whose steps send, or make no exchange. -/
def Sends (i : Instr) (s : State) : Prop :=
  s.ph = .idle ∨ s.ph = .pre ∨ s.ph = .frame ∨ s.ph = .lead ∨ (s.ph = .data ∧ ∃ a, i = .wrblk a)

/-- A row that sends is a row under every script of answers, and leaves the script. -/
theorem Row.withScript {i : Instr} {s t : State} (h : Row i s t) (hs : Sends i s) (script : List Byte) :
    t.rx = s.rx ∧ Row i { s with rx := script } { t with rx := script } := by
  cases h
  case done hi =>
    rw [← immediateOk_congr i (s := s) (t := { s with rx := script }) rfl]
    exact ⟨rfl, .done i _ hi⟩
  case enterSend hp => exact ⟨rfl, .enterSend _ _ _ hp⟩
  case enterWrite hp => exact ⟨rfl, .enterWrite _ _ hp⟩
  case enterRead hp => exact ⟨rfl, .enterRead _ _ hp⟩
  case enterScan hi hp => exact ⟨rfl, .enterScan i _ hi hp⟩
  case enterInit hp => exact ⟨rfl, .enterInit _ hp⟩
  case frameByte hi hp hc => exact ⟨rfl, .frameByte i { s with rx := script } hi hp hc⟩
  case frameDone hp hc hi => exact ⟨rfl, .frameDone i { s with rx := script } hi hp hc⟩
  case frameScan hp hc hi => exact ⟨rfl, .frameScan i { s with rx := script } hi hp hc⟩
  case preByte hp hq hc => exact ⟨rfl, .preByte _ hp hq hc⟩
  case preLast hp hq hc => exact ⟨rfl, .preLast _ hp hq hc⟩
  case leadIdle hp hc => exact ⟨rfl, .leadIdle _ _ hp hc⟩
  case leadToken hp hc => exact ⟨rfl, .leadToken _ _ hp hc⟩
  case writeByte hp hc => exact ⟨rfl, .writeByte _ _ hp hc⟩
  case writeLast hp hc => exact ⟨rfl, .writeLast _ _ hp hc⟩
  -- every other row reads
  all_goals simp_all [Sends]

/-- Settles O42: `Row.withScript`. -/
theorem sendingStepsIgnoreTheAnswer : Obligations.SendingStepsIgnoreTheAnswer := by
  unfold Obligations.SendingStepsIgnoreTheAnswer
  intro i s t script hs h
  obtain ⟨hrx, hrow⟩ := (exec_row h).withScript hs script
  exact ⟨hrx, hrow.exec⟩

/-- Settles O43: RDBLK's store writes the other contents; every other row is the same row. -/
theorem receiveBuffersAreNeverRead : Obligations.ReceiveBuffersAreNeverRead := by
  unfold Obligations.ReceiveBuffersAreNeverRead
  intro i s t a b h
  cases exec_row h
  case done hi =>
    refine ⟨a, b, ?_⟩
    rw [← immediateOk_congr i (s := s) (t := { s with rxA := a, rxB := b }) rfl]
    exact (Row.done i _ hi).exec
  case readByte hp hc => exact ⟨_, _, (Row.readByte _ { s with rxA := a, rxB := b } hp hc).exec⟩
  case readLast hp hc => exact ⟨_, _, (Row.readLast _ { s with rxA := a, rxB := b } hp hc).exec⟩
  all_goals exact ⟨a, b, Row.exec (by constructor <;> assumption)⟩

end Sys2Proof.Machine
end

section
/-! PROOFS of the statements about the invariant `Safety.inv` (10_state.md R21 to R39): it holds at reset, every step keeps it,
and no state that meets it is stuck. -/

namespace Sys2Proof.Machine

open Sys2Proof.Safety

/-- Settles O44: the reset state is one closed state. -/
theorem invHoldsAtReset : Obligations.InvHoldsAtReset := by
  unfold Obligations.InvHoldsAtReset
  decide

theorem inv_iff (s : State) :
    inv s = true ↔ buffersOk s = true ∧ positionOk s = true ∧ chipSelectOk s = true ∧ sequencerOk s = true ∧
      responseOk s = true := by
  simp only [inv, Bool.and_eq_true, and_assoc]

/-- Settles O46: a sound position is a row of its step table, and `step_position` takes that row. -/
theorem soundStateNeverStops : Obligations.SoundStateNeverStops := by
  unfold Obligations.SoundStateNeverStops
  intro s h
  obtain ⟨t, hs, -⟩ := step_position (positionOk_of_inv h)
  exact ⟨t, hs⟩

/-! ## What a row of the step tables keeps -/

/-- The one row that stores a byte stores it below `BLOCK_LEN` (20_memory.md R61). -/
theorem Row.buffersOk {i : Instr} {s t : State} (h : Row i s t) (hs : buffersOk s = true) : buffersOk t = true := by
  have store : ∀ c v u, c < Config.blockLen → u.wrbuf = (storeRx c v (rxByte s)).wrbuf →
      u.rxA = (storeRx c v (rxByte s)).rxA → u.rxB = (storeRx c v (rxByte s)).rxB → Safety.buffersOk u = true := by
    intro c v u hc hw hA hB
    simp only [Safety.buffersOk, Bool.and_eq_true] at hs ⊢
    obtain ⟨⟨hwr, hrxA⟩, hrxB⟩ := hs
    rw [hw, hA, hB]
    exact ⟨⟨hwr, wf_storeRx_rxA c v _ hc hrxA⟩, wf_storeRx_rxB c v _ hc hrxB⟩
  cases h
  case readByte hp hc => exact store _ _ _ (hc.trans (by decide)) rfl rfl rfl
  case readLast hp hc => exact store 511 _ _ (by decide) rfl rfl rfl
  all_goals exact hs

/-- Chip-select moves only with the sequencer state (43_init_sequencer.md R181, R187). -/
theorem Row.chipSelectOk {i : Instr} {s t : State} (h : Row i s t) (hs : chipSelectOk s = true) :
    chipSelectOk t = true := by
  simp only [Safety.chipSelectOk, beq_iff_eq] at hs ⊢
  cases h
  case enterInit => rfl
  case preLast => rfl
  case initFrame q code arg hp hq =>
    have hsel : deselected s.iseq = false ∧ deselected q = false := by
      rcases hq with ⟨hq, -, rfl, -⟩ | ⟨hq, -, rfl, -⟩ | ⟨hq, -, rfl, -⟩ | ⟨hq, -, rfl, -⟩ | ⟨hq, -, rfl, -⟩ |
        ⟨hq, -, rfl, -⟩ | ⟨hq, -, rfl, -⟩ <;> exact ⟨by rw [hq]; rfl, rfl⟩
    exact hs.trans (hsel.1.trans hsel.2.symm)
  case initReady hp hq hr => rw [hq] at hs; exact hs
  all_goals exact hs

/-- `i` is what the busy core executes in `s`: the latched request, or a frame row in phase `FRAME` (log 7). -/
structure Executes (i : Instr) (s : State) : Prop where
  busy : s.busy = true
  word : (s.ph = .frame ∧ i.isFrame = true) ∨ decodeOp s.curOp s.opd = i

/-- What a busy core at a sound position does is a row of the instruction it executes. -/
theorem row_of_coreStep {s t : State} (hb : s.busy = true) (hpos : positionOk s = true) (h : coreStep s = .next t) :
    ∃ i, Row i s t ∧ Executes i s := by
  by_cases hp : s.ph = .frame
  · obtain ⟨code, arg, hf⟩ := framing_of_positionOk hpos hb hp
    simp only [framing, Bool.and_eq_true, beq_iff_eq] at hf
    have hw : fetchWord s = frameOf code arg (frameCrc code arg) := by
      simp [fetchWord, hp, hf.2, wordOfBytes_buildFrame]
    simp only [coreStep, hb, if_true, hw, decode_frameOf] at h
    exact ⟨_, exec_row h, hb, .inl ⟨hp, isFrame_decodeFrame _⟩⟩
  · rw [coreStep_request s hb hp] at h
    exact ⟨_, exec_row h, hb, .inr rfl⟩

theorem noExchange_of_isFrame {i : Instr} (h : i.isFrame = true) : noExchange i = false := by
  cases i <;> simp_all [Instr.isFrame, noExchange]

theorem decodeOp_eq_init_iff (op : BitVec 4) (operand : BitVec 40) : decodeOp op operand = .init ↔ op = 0x7#4 := by
  constructor
  · intro h
    unfold decodeOp at h
    split at h
    case h_8 => rfl
    all_goals cases h
  · rintro rfl
    rfl

/-- INIT runs only as the latched request. -/
theorem Executes.curOp_of_init {s : State} (h : Executes .init s) : s.curOp = 0x7#4 := by
  rcases h.word with ⟨-, hf⟩ | hd
  · cases hf
  · exact (decodeOp_eq_init_iff _ _).mp hd

/-- Only INIT is in a sequencer state other than `S_OFF` and `S_READY`, and it completes in `S_READY` (10_state.md R26). -/
theorem Row.sequencerOk {i : Instr} {s t : State} (h : Row i s t) (he : Executes i s) (hs : sequencerOk s = true) :
    sequencerOk t = true := by
  obtain ⟨hop, -⟩ := h.latches_eq
  by_cases hi : i = .init
  · subst hi
    have hinit := he.curOp_of_init
    cases h
    case initReady => rfl
    case done hi => cases hi
    case frameDone hi => simp [Instr.isFrame] at hi
    case commandRejected hi _ _ => simp at hi
    all_goals simp [Safety.sequencerOk, he.busy, hinit]
  obtain ⟨hiseq, -⟩ := h.sequencer_eq hi
  by_cases hinit : s.curOp = 0x7#4
  · obtain ⟨hp, hf⟩ := he.word.resolve_right fun hd => hi (hd.symm.trans ((decodeOp_eq_init_iff _ _).mpr hinit))
    have hb : t.busy = true := by
      cases h
      case done hn => simp [noExchange_of_isFrame hf] at hn
      case frameDone hdone =>
        rcases hdone with ⟨c, a, rfl⟩ | ⟨-, h2⟩
        · cases hf
        · simp [hinit] at h2
      -- every other row goes on, or is in another phase
      all_goals simp_all [he.busy]
    simp [Safety.sequencerOk, hb, hop, hinit]
  · simp only [Safety.sequencerOk, hop, hiseq] at hs ⊢
    simpa [hinit] using hs

/-- In phase `CAP` the first captured byte is not idle (42_response_reader.md R164), and what runs reads. -/
structure CapturesNonIdle (i : Instr) (s : State) : Prop where
  reads : s.ph = .cap → noExchange i = false
  first : s.ph = .cap → s.resp[0] ≠ Config.idle

/-- What `responseOk` says of the response whatever the phase. -/
theorem responseOk_iff (s : State) :
    responseOk s = true ↔
      (s.respLen = .none0 → s.ph = .cap ∨ s.resp = State.reset.resp) ∧
      (s.respLen ≠ .none0 → s.resp[0] ≠ Config.idle) := by
  cases h : s.respLen <;> simp [responseOk, h]

/-- A capture starts with a byte that is not idle, and only a whole capture sets `RESP_LEN` (10_state.md R24, R25). -/
theorem Row.responseOk {i : Instr} {s t : State} (h : Row i s t) (hc : CapturesNonIdle i s) (hs : responseOk s = true) :
    responseOk t = true := by
  obtain ⟨hreads, hfirst⟩ := hc
  rw [responseOk_iff] at hs ⊢
  obtain ⟨hnone, hcaptured⟩ := hs
  have keeps : t.resp = s.resp → t.respLen = s.respLen → s.ph ≠ .cap →
      (t.respLen = .none0 → t.ph = .cap ∨ t.resp = State.reset.resp) ∧
      (t.respLen ≠ .none0 → t.resp[0] ≠ Config.idle) := by
    intro hr hl hp
    simp only [hr, hl]
    exact ⟨fun h0 => .inr ((hnone h0).resolve_left hp), hcaptured⟩
  have hfound : isIdleByte (rxAnswer s) = false → rxAnswer s ≠ Config.idle := fun hx => beq_eq_false_iff_ne.mp hx
  cases h
  case done hi =>
    exact keeps rfl rfl fun hp => by simp [hreads hp] at hi
  case scanShortHit hp hx hi => exact ⟨nofun, fun _ => by simpa using hfound hx⟩
  case scanExtHit hp hx hi => exact ⟨fun _ => .inl rfl, fun _ => by simpa using hfound hx⟩
  case capByte hp h1 h3 hi =>
    have hne : s.cnt.toNat ≠ 0 := by omega
    exact ⟨fun _ => .inl hp, fun hl => by simpa [hne] using hcaptured hl⟩
  case capLast hp hc hi => exact ⟨nofun, fun _ => by simpa using hfirst hp⟩
  all_goals exact keeps rfl rfl (by simp [*])

/-! ## Every step keeps the invariant -/

/-- A row of the operation in progress keeps the invariant, but for the position, which is `step_position`'s. -/
theorem Row.keeps_inv {i : Instr} {s t : State} (h : Row i s t) (he : Executes i s) (hc : CapturesNonIdle i s)
    (hbuf : Safety.buffersOk s = true) (hcs : Safety.chipSelectOk s = true) (hseq : Safety.sequencerOk s = true)
    (hresp : Safety.responseOk s = true) (hpos : positionOk t = true) : inv t = true :=
  (inv_iff t).mpr ⟨h.buffersOk hbuf, hpos, h.chipSelectOk hcs, h.sequencerOk he hseq, h.responseOk hc hresp⟩

/-- In phase `CAP` a sound core runs RDRESP5 or INIT, and has captured a byte that is not idle. -/
theorem capturesNonIdle_of_positionOk {i : Instr} {s : State} (h : positionOk s = true) (he : Executes i s) :
    CapturesNonIdle i s := by
  obtain ⟨hb, hword⟩ := he
  suffices hcap : s.ph = .cap → (s.curOp = 0x4#4 ∨ s.curOp = 0x7#4) ∧ s.resp[0] ≠ Config.idle by
    refine ⟨fun hp => ?_, fun hp => (hcap hp).2⟩
    obtain ⟨hop, -⟩ := hcap hp
    obtain rfl := hword.resolve_left fun hf => by simp [hp] at hf
    rcases hop with hop | hop <;> rw [hop] <;> rfl
  intro hp
  have hshort : readingShort s = false := by simp [readingShort, hp]
  have hext : readingExtended s = true → s.resp[0] ≠ Config.idle := by
    simp only [readingExtended, hp, Bool.or_eq_true, Bool.and_eq_true, bne_iff_ne]
    simp
  have hframe : ∀ code arg, framing code arg s = false := by simp [framing, hp]
  simp only [positionOk, hb, if_true] at h
  split at h
  case h_3 hop => exact ⟨.inl hop, hext h⟩
  case h_4 hop =>
    refine ⟨.inr hop, hext ?_⟩
    unfold initPosition at h
    split at h <;> simp_all
  all_goals simp [hframe, hshort, wrblkPosition, rdblkPosition, hp] at h

theorem coreStep_keeps_inv {s t : State} (hs : inv s = true) (h : coreStep s = .next t) : inv t = true := by
  obtain ⟨hbuf, hpos, hcs, hseq, hresp⟩ := (inv_iff s).mp hs
  obtain ⟨u, hu, hposu⟩ := coreStep_position hpos
  obtain rfl : t = u := by rw [h] at hu; cases hu; rfl
  cases hb : s.busy with
  | false =>
    rw [coreStep_idle s hb] at h
    cases h
    exact hs
  | true =>
    obtain ⟨i, hrow, he⟩ := row_of_coreStep hb hpos h
    exact hrow.keeps_inv he (capturesNonIdle_of_positionOk hpos he) hbuf hcs hseq hresp hposu

theorem hostStep_keeps_inv {m : HostMove} {s t : State} (hs : inv s = true) (h : hostStep m s = .next t) :
    inv t = true := by
  cases m with
  | pass => exact coreStep_keeps_inv hs h
  | writeReq w =>
    cases hb : s.busy with
    | true =>
      simp only [hostStep, writeReq, hb, if_true, Host.Outcome.next.injEq] at h
      exact h ▸ hs
    | false =>
      obtain ⟨hbuf, hpos, hcs, hseq, hresp⟩ := (inv_iff s).mp hs
      have hp : s.ph = .idle := by simpa [positionOk, hb] using hpos
      obtain ⟨u, hu, hposu⟩ := exec_accept_position (reqOp w) (reqOperand w) s hp
      simp only [hostStep, writeReq, hb, Bool.false_eq_true, if_false, decodeReq] at h
      obtain rfl : t = u := by rw [h] at hu; cases hu; rfl
      have hseqa : sequencerOk (accept (reqOp w) (reqOperand w) s) = true := by
        simp only [sequencerOk, hb, Bool.false_and, Bool.false_or, Bool.or_eq_true] at hseq
        rcases hseq with hq | hq <;> simp [sequencerOk, hq]
      exact (exec_row h).keeps_inv ⟨rfl, .inr rfl⟩ ⟨by simp [hp], by simp [hp]⟩ hbuf hcs hseqa hresp hposu
  | writeWrbuf i v =>
    cases h
    obtain ⟨hbuf, hrest⟩ := (inv_iff s).mp hs
    refine (inv_iff _).mpr ⟨?_, hrest⟩
    simp only [buffersOk, Bool.and_eq_true] at hbuf ⊢
    exact ⟨⟨wf_hostWriteWrbuf i v s hbuf.1.1, hbuf.1.2⟩, hbuf.2⟩
  | reset =>
    cases h
    obtain ⟨hbuf, -⟩ := (inv_iff s).mp hs
    exact (inv_iff _).mpr ⟨hbuf, rfl, rfl, rfl, (by decide : responseOk State.reset = true)⟩

/-- Settles O45: the core's step is a row of what it executes, and a host's move is an acceptance, a write or a reset. -/
theorem everyStepKeepsInv : Obligations.EveryStepKeepsInv := by
  unfold Obligations.EveryStepKeepsInv
  intro s t hs h
  cases hm : s.host with
  | nil => exact coreStep_keeps_inv hs (step_nil s hm ▸ h)
  | cons m rest => exact hostStep_keeps_inv (s := { s with host := rest }) hs (step_cons s m rest hm ▸ h)

end Sys2Proof.Machine
end

section
/-! PROOFS of the statements about the Checksum Unit (40_checksum.md R140, R141): linearity, and the remainder over GF(2). -/

namespace Sys2Proof.Machine

/-! ## Linearity (40_checksum.md R141) -/

/-- What a turn of the loop adds to the shifted accumulator when the bit `fb` is fed back. -/
def feedback (fb : Bool) : BitVec 7 := if fb then Config.crcPoly else 0#7

theorem feedback_xor (p q : Bool) : feedback (p ^^ q) = feedback p ^^^ feedback q := by
  revert p q
  decide

theorem crcBit_eq (acc : BitVec 7) (bit : Bool) : crcBit acc bit = acc <<< 1 ^^^ feedback (acc.getLsbD 6 ^^ bit) := by
  unfold crcBit
  cases acc.getLsbD 6 ^^ bit <;> simp [feedback]

theorem crcBit_xor (a c : BitVec 7) (x y : Bool) : crcBit (a ^^^ c) (x ^^ y) = crcBit a x ^^^ crcBit c y := by
  simp only [crcBit_eq, BitVec.getLsbD_xor, feedback_xor, BitVec.shiftLeft_xor_distrib]
  ac_rfl

/-- Any number of turns, over the bits of two bytes at the same places. -/
theorem foldl_crcBit_xor (places : List Nat) (a c : BitVec 7) (b d : Byte) :
    places.foldl (fun r i => crcBit r ((b ^^^ d).getLsbD i)) (a ^^^ c) =
      places.foldl (fun r i => crcBit r (b.getLsbD i)) a ^^^ places.foldl (fun r i => crcBit r (d.getLsbD i)) c := by
  induction places generalizing a c with
  | nil => rfl
  | cons i rest ih => rw [List.foldl_cons, BitVec.getLsbD_xor, crcBit_xor, ih]; rfl

theorem crcUpdate_xor (a c : BitVec 7) (b d : Byte) :
    crcUpdate (a ^^^ c) (b ^^^ d) = crcUpdate a b ^^^ crcUpdate c d :=
  foldl_crcBit_xor _ a c b d

/-- The accumulator acts as the byte that is it shifted up by one. -/
theorem crcUpdate_shifted (a : BitVec 7) : crcUpdate 0#7 (a.setWidth 8 <<< 1) = crcUpdate a 0#8 := by
  revert a
  decide +kernel

theorem crcUpdate_table (a : BitVec 7) (b : Byte) : crcUpdate a b = crcUpdate 0#7 (a.setWidth 8 <<< 1 ^^^ b) := by
  have hl := crcUpdate_xor a 0#7 0#8 b
  have hr := crcUpdate_xor 0#7 0#7 (a.setWidth 8 <<< 1) b
  simp only [BitVec.xor_zero, BitVec.zero_xor] at hl hr
  rw [hl, hr, crcUpdate_shifted]

/-- Settles O20: `crcUpdate_xor`; with the accumulator in the byte, the residues are those of `0` and of the end bit. -/
theorem updateIsLinearTableAndResidue : Obligations.UpdateIsLinearTableAndResidue := by
  unfold Obligations.UpdateIsLinearTableAndResidue
  refine ⟨crcUpdate_xor, crcUpdate_table, fun c => ⟨?_, crcUpdate_checksumByte c⟩⟩
  rw [crcUpdate_table, BitVec.xor_self]
  rfl

/-- Settles O22: CRC7UPD is an operation without an exchange, and `crcUpdate` is the loop with its turns written out. -/
theorem crc7updResult : Obligations.Crc7updResult := by
  unfold Obligations.Crc7updResult
  exact ⟨fun acc y s => (Row.done (.crc7upd acc y) s rfl).exec, fun operand => decodeReq_append _ operand, by decide,
    by decide⟩

/-! ## The remainder over GF(2) (40_checksum.md R141) -/

section
open Polynomial

/-- The low `n` bits as a polynomial over GF(2), bit `i` the coefficient of `x^i`. -/
noncomputable def bitPoly (n : Nat) (bit : Nat → Bool) : (ZMod 2)[X] :=
  ∑ i ∈ Finset.range n, if bit i then X ^ i else 0

/-- The bits of a message as a polynomial, first bit most significant. -/
noncomputable def messagePoly (bits : List Bool) : (ZMod 2)[X] :=
  bits.foldl (fun m b => m * X + if b then 1 else 0) 0

/-- Exclusive or of bits is addition over GF(2). -/
theorem ite_xor (x y : Bool) (p : (ZMod 2)[X]) :
    (if x ^^ y then p else 0) = (if x then p else 0) + if y then p else 0 := by
  cases x <;> cases y <;> simp [CharTwo.add_self_eq_zero]

theorem bitPoly_xor (n : Nat) (x y : Nat → Bool) : bitPoly n (fun i => x i ^^ y i) = bitPoly n x + bitPoly n y := by
  simp only [bitPoly, ite_xor, Finset.sum_add_distrib]

theorem bitPoly_shiftLeft (a : BitVec 7) :
    bitPoly 7 (a <<< 1).getLsbD + (if a.getLsbD 6 then X ^ 7 else 0) = bitPoly 7 a.getLsbD * X := by
  simp [bitPoly, Finset.sum_range_succ, add_mul, ite_mul, ← pow_succ, ← pow_two]

theorem bitPoly_feedback (fb : Bool) : bitPoly 7 (feedback fb).getLsbD = if fb then X ^ 3 + 1 else 0 := by
  cases fb
  · simp [bitPoly, feedback]
  · rw [if_pos rfl, add_comm]
    simp [bitPoly, Finset.sum_range_succ, feedback, Config.crcPoly]

/-- One turn: `A(x) * x + b * x^7`, up to the generator where a bit is fed back. -/
theorem bitPoly_crcBit (acc : BitVec 7) (b : Bool) :
    bitPoly 7 (crcBit acc b).getLsbD + (if acc.getLsbD 6 ^^ b then 1 else 0) * (X ^ 7 + X ^ 3 + 1) =
      bitPoly 7 acc.getLsbD * X + (if b then 1 else 0) * X ^ 7 := by
  have hxor : (crcBit acc b).getLsbD =
      fun i => (acc <<< 1).getLsbD i ^^ (feedback (acc.getLsbD 6 ^^ b)).getLsbD i := by
    funext i
    rw [crcBit_eq, BitVec.getLsbD_xor]
  have h2 : (2 : (ZMod 2)[X]) = 0 := CharTwo.two_eq_zero
  rw [hxor, bitPoly_xor, bitPoly_feedback, ← bitPoly_shiftLeft]
  cases acc.getLsbD 6 <;> cases b <;> simp
  · linear_combination (X ^ 3 + 1) * h2
  · linear_combination (X ^ 3 + 1) * h2
  · linear_combination - X ^ 7 * h2

/-- Any number of turns: the accumulator moves up, and the bits come in below. -/
theorem bitPoly_foldl_crcBit (bits : List Bool) (acc : BitVec 7) :
    ∃ q : (ZMod 2)[X], bitPoly 7 (bits.foldl crcBit acc).getLsbD + q * (X ^ 7 + X ^ 3 + 1) =
      bitPoly 7 acc.getLsbD * X ^ bits.length + messagePoly bits * X ^ 7 := by
  induction bits using List.reverseRecOn with
  | nil => exact ⟨0, by simp [messagePoly]⟩
  | append_singleton bits b ih =>
    obtain ⟨q, hq⟩ := ih
    have hturn := bitPoly_crcBit (bits.foldl crcBit acc) b
    have hmsg : messagePoly (bits ++ [b]) = messagePoly bits * X + if b then 1 else 0 := by simp [messagePoly]
    rw [List.foldl_concat, List.length_append, List.length_singleton, hmsg]
    exact ⟨q * X + if (bits.foldl crcBit acc).getLsbD 6 ^^ b then 1 else 0, by
      linear_combination hturn + X * hq⟩

/-- The eight bits of a byte, bit 7 first. -/
def bitsOf (byte : Byte) : List Bool := [7, 6, 5, 4, 3, 2, 1, 0].map byte.getLsbD

theorem crcUpdate_eq_foldl (acc : BitVec 7) (byte : Byte) : crcUpdate acc byte = (bitsOf byte).foldl crcBit acc := by
  simp only [crcUpdate, bitsOf, List.foldl_map]

theorem messagePoly_bitsOf (byte : Byte) : messagePoly (bitsOf byte) = bitPoly 8 byte.getLsbD := by
  have hterm : ∀ (b : Bool) (i : Nat), (if b then X ^ i else 0 : (ZMod 2)[X]) = (if b then 1 else 0) * X ^ i :=
    fun b i => (boole_mul _ _).symm
  simp only [messagePoly, bitsOf, bitPoly, List.map_cons, List.map_nil, List.foldl_cons, List.foldl_nil,
    Finset.sum_range_succ, Finset.sum_range_zero, hterm]
  ring

theorem bitPoly_crcUpdate (acc : BitVec 7) (byte : Byte) :
    ∃ q : (ZMod 2)[X], bitPoly 7 (crcUpdate acc byte).getLsbD + q * (X ^ 7 + X ^ 3 + 1) =
      bitPoly 7 acc.getLsbD * X ^ 8 + bitPoly 8 byte.getLsbD * X ^ 7 := by
  rw [crcUpdate_eq_foldl, ← messagePoly_bitsOf]
  exact bitPoly_foldl_crcBit (bitsOf byte) acc

/-- Settles O18: the eight turns of `bitPoly_foldl_crcBit` on the bits of the byte. -/
theorem updateIsPolynomialRemainder : Obligations.UpdateIsPolynomialRemainder := by
  unfold Obligations.UpdateIsPolynomialRemainder
  intro poly acc byte
  exact bitPoly_crcUpdate acc byte

/-- Settles O19: by induction on the message, a byte (`bitPoly_crcUpdate`) at a time. -/
theorem messageChecksumIsPolynomialRemainder : Obligations.MessageChecksumIsPolynomialRemainder := by
  unfold Obligations.MessageChecksumIsPolynomialRemainder
  intro poly msg
  induction msg using List.reverseRecOn with
  | nil => exact ⟨0, by simp [poly, crc7, Config.crcInit]⟩
  | append_singleton msg byte ih =>
    obtain ⟨q, hq⟩ := ih
    obtain ⟨r, hr⟩ := bitPoly_crcUpdate (crc7 msg) byte
    rw [List.foldl_concat]
    refine ⟨r + q * X ^ 8, ?_⟩
    have hcrc : crc7 (msg ++ [byte]) = crcUpdate (crc7 msg) byte := List.foldl_concat ..
    rw [hcrc]
    change bitPoly 7 _ + _ = (_ + bitPoly 8 _) * _
    change bitPoly 7 _ + _ = _ at hq
    linear_combination hr + X ^ 8 * hq

end

end Sys2Proof.Machine
end

section
/-! PROOFS of the statements about reset, the host's registers, one step and the exchanges (10_state.md R34 to R43;
20_memory.md R71 to R76; 42_response_reader.md R165, R167). -/

namespace Sys2Proof.Machine

open Sys2Proof.Safety

/-! ## Reset and the host's registers -/

/-- Settles O1: the step is `hardReset`, whose registers are those of the reset state. -/
theorem resetSetsEveryRegister : Obligations.ResetSetsEveryRegister := by
  unfold Obligations.ResetSetsEveryRegister
  constructor
  · intro s rest h
    exact ⟨hardReset { s with host := rest }, step_cons s .reset rest h, rfl, rfl, rfl, rfl, rfl, rfl, rfl, rfl, rfl, rfl,
      fun b i => by cases b <;> rfl, rfl, rfl, rfl, rfl⟩
  · exact ⟨rfl, rfl, rfl, rfl, rfl, rfl, rfl, rfl, rfl, rfl⟩

/-- `RESP[0]` is the most significant byte of the packed response (20_memory.md R67). -/
theorem packResp_byte (r : Vector Byte 5) (k : Fin 5) : (packResp r).extractLsb' (32 - 8 * k.val) 8 = r[k.val] := by
  unfold packResp
  match k with
  | 0 | 1 | 2 | 3 | 4 =>
    simp (disch := omega) only [BitVec.extractLsb'_append_eq_of_add_le, BitVec.extractLsb'_append_eq_of_le]
    exact BitVec.extractLsb'_eq_self

/-- A byte that the buffer lists is the byte it reads as. -/
theorem Memory.byteAt_of_read? {m : Memory} {a : Nat} {v : Byte} (b : BufId) (h : Memory.read? m a = some v) :
    Memory.byteAt b m a = v := by
  rw [Memory.byteAt, h, Option.getD_some]

/-- Settles O3: the bytes of `packResp`, and `Memory.byteAt_of_read?` for each window. -/
theorem hostReadsRespAndWindows : Obligations.HostReadsRespAndWindows := by
  unfold Obligations.HostReadsRespAndWindows
  intro s
  exact ⟨packResp_byte s.resp, fun i v => Memory.byteAt_of_read? .wr, fun i v => Memory.byteAt_of_read? .rxA,
    fun i v => Memory.byteAt_of_read? .rxB⟩

/-- Settles O8: the move is a write of `WRBUF` at an index below `BLOCK_LEN`. -/
theorem hostWriteChangesOneWrbufByte : Obligations.HostWriteChangesOneWrbufByte := by
  unfold Obligations.HostWriteChangesOneWrbufByte
  intro s i v rest h
  exact ⟨_, step_writeWrbuf s i v rest h, Memory.read?_write_same _ _ _,
    fun a ha => Memory.read?_write_other _ _ _ _ ha, wf_hostWriteWrbuf i v s⟩

/-! ## One step -/

theorem step_pass {s : State} {rest : List HostMove} (h : s.host = .pass :: rest) :
    step s = coreStep { s with host := rest } :=
  step_cons s .pass rest h

/-- Settles O7: an idle core's own step is `coreStep_idle`. -/
theorem idleCoreChangesNothing : Obligations.IdleCoreChangesNothing := by
  unfold Obligations.IdleCoreChangesNothing
  intro s hb
  exact ⟨fun h => (step_nil s h).trans (coreStep_idle s hb), fun rest h => (step_pass h).trans (coreStep_idle _ hb)⟩

theorem coreStep_decoded {s : State} {i : Instr} (hb : s.busy = true) (hd : decode (fetchWord s) = .ok i) :
    coreStep s = exec i s := by
  simp [coreStep, hb, hd]

/-- Settles O5: the two words of `fetchWord`, the core's step on one of them, and the accepted request. -/
theorem stepRunsDecodedInstruction : Obligations.StepRunsDecodedInstruction := by
  unfold Obligations.StepRunsDecodedInstruction
  refine ⟨fun s hp => ?_, fun s hp => ?_, fun s i hb hd => ⟨fun hh => ?_, fun rest hh => ?_⟩,
    fun s i w rest hb hh hd => ?_⟩
  · rw [fetchWord, if_pos hp, wordOfBytes]
  · rw [fetchWord, if_neg hp, tableOfReq, reqOf]
  · rw [step_nil s hh, coreStep_decoded hb hd]
  · rw [step_pass hh]
    exact coreStep_decoded (s := { s with host := rest }) hb hd
  · obtain rfl : decodeReq w = i := Decoded.ok.inj ((decode_tableOfReq w).symm.trans hd)
    exact (requestAcceptedWhenIdleDroppedWhenBusy s w rest hh).1 hb

/-! ## Operations and frames -/

/-- The comparison with `EXP5`, byte by byte, most significant first (30_encoding.md R111). -/
theorem matchesExtended_unpackExp (e : BitVec 40) (s : State) :
    matchesExtended (unpackExp e) s =
      decide (s.resp[0] = e.extractLsb' 32 8 ∧ s.resp[1] = e.extractLsb' 24 8 ∧ s.resp[2] = e.extractLsb' 16 8 ∧
              s.resp[3] = e.extractLsb' 8 8 ∧ s.resp[4] = e.extractLsb' 0 8) := by
  rw [Bool.eq_iff_iff, decide_eq_true_iff]
  simp only [matchesExtended, Bool.and_eq_true, beq_iff_eq, and_assoc]
  exact Iff.rfl

/-- Settles O25: both are operations without an exchange whose `OK` is the comparison. -/
theorem matchOperationsCompareResp : Obligations.MatchOperationsCompareResp := by
  unfold Obligations.MatchOperationsCompareResp
  refine ⟨fun e s => (Row.done (.match1 e) s rfl).exec, fun e s => ?_, fun operand => decodeReq_append 0x5#4 operand,
    fun operand => decodeReq_append 0x6#4 operand⟩
  rw [← matchesExtended_unpackExp]
  exact (Row.done (.match5 e) s rfl).exec

/-- Settles O26: the environment's answer by its script, the rest by definition. -/
theorem transportPrimitives : Obligations.TransportPrimitives := by
  unfold Obligations.TransportPrimitives
  intro s
  refine ⟨fun b => rfl, fun b r h => ⟨rxAnswer_cons s b r h, rxByte_cons h⟩, fun h => ⟨rxAnswer_nil s h, ?_⟩, rfl, rfl⟩
  simp [rxByte, rxAnswer_nil s h, h]

/-- Settles O27: in phase `FRAME` a frame row is one of the three rows of `SendCommand`; outside it does nothing. -/
theorem commandFramesTransmitTheirBytes : Obligations.CommandFramesTransmitTheirBytes := by
  unfold Obligations.CommandFramesTransmitTheirBytes
  intro i s hf
  have hbytes : bytesOfWord (encode i) = framedBytes i s := (if_pos hf).symm
  simp only [hbytes]
  refine ⟨fun hp hc => ?_, fun hp hc hop => ?_, fun hp hc hop => ?_, fun hp => ?_⟩
  · exact (Row.frameByte i s (.inr (.inr (.inr (.inr hf)))) hp hc).exec
  · exact (Row.frameDone i s (.inr ⟨hf, hop⟩) hp hc).exec
  · exact (Row.frameScan i s (.inr (.inr (.inr ⟨hf, hop⟩))) hp hc).exec
  · rw [exec_frame hf, transmit, if_neg hp, offTable_eq]

/-! ## The card's stream (10_state.md R41(b), 20_memory.md R76) -/

/-- `t` has the wire of `s` and at most one more exchange, and its position counts it. -/
structure Streams (s t : State) : Prop where
  wire : ∃ new, t.wire = new ++ s.wire ∧ t.xn = s.xn + exchangesOf new
  most : t.xn ≤ s.xn + 1

theorem Streams.refl (s : State) : Streams s s := ⟨⟨[], rfl, rfl⟩, Nat.le_succ _⟩

theorem exec_streams {i : Instr} {s t : State} (h : exec i s = .next t) : Streams s t := by
  obtain ⟨new, hw, hx, hnew, -⟩ := oneExchangeAStep i s t h
  refine ⟨⟨new, hw, hx⟩, ?_⟩
  rw [hx, hnew]
  split <;> omega

theorem coreStep_streams {s t : State} (h : coreStep s = .next t) : Streams s t := by
  unfold coreStep at h
  split at h
  · split at h
    · exact exec_streams h
    · cases h
  · cases h
    exact .refl s

theorem hostStep_streams {m : HostMove} {s t : State} (h : hostStep m s = .next t) : Streams s t := by
  cases m with
  | pass => exact coreStep_streams h
  | writeReq w =>
    simp only [hostStep, writeReq] at h
    split at h
    · cases h
      exact .refl s
    · obtain ⟨hw, hm⟩ := exec_streams h
      exact ⟨hw, hm⟩
  | writeWrbuf i v =>
    cases h
    exact ⟨⟨[], rfl, rfl⟩, Nat.le_succ _⟩
  | reset =>
    cases h
    exact ⟨⟨[], rfl, rfl⟩, Nat.le_succ _⟩

theorem step_streams {s t : State} (h : step s = .next t) : Streams s t := by
  cases hm : s.host with
  | nil => exact coreStep_streams (step_nil s hm ▸ h)
  | cons m rest =>
    obtain ⟨hw, hx⟩ := hostStep_streams (s := { s with host := rest }) (step_cons s m rest hm ▸ h)
    exact ⟨hw, hx⟩

theorem exchangesOf_append (new old : List Event) : exchangesOf (new ++ old) = exchangesOf new + exchangesOf old := by
  induction new with
  | nil => simp [exchangesOf]
  | cons e rest ih => cases e <;> simp only [List.cons_append, exchangesOf, ih] <;> omega

/-- Settles O47: every step counts the exchanges it puts on the wire (`step_streams`). -/
theorem streamPositionCountsExchanges : Obligations.StreamPositionCountsExchanges := by
  unfold Obligations.StreamPositionCountsExchanges
  refine ⟨rfl, fun s t h => ?_⟩
  obtain ⟨⟨new, hw, hx⟩, hmost⟩ := step_streams h
  refine ⟨fun hs => ?_, ⟨new, hw⟩, by omega, hmost⟩
  simp only [streamCounted, beq_iff_eq] at hs ⊢
  rw [hw, hx, hs, exchangesOf_append, Nat.add_comm]

end Sys2Proof.Machine
end

section
/-! PROOFS of the hangs and of the counted phases (60_exceptions.md R240): the idle-skip hang, and the end of every other phase. -/

namespace Sys2Proof.Machine

open Sys2Proof.Safety

/-! ## The idle-skip hang -/

/-- `i` skips idle bytes in `s`: in `SCAN` of a reader (42_response_reader.md R161), or in `TOKEN` (44_block_io.md R211). -/
def SkipsIdle (i : Instr) (s : State) : Prop :=
  ((ReadsShort i s ∨ ReadsExtended i s) ∧ s.ph = .scan) ∨ ((∃ a, i = .rdblk a) ∧ s.ph = .token)

theorem Running.step_skip {i : Instr} {s : State} {rest : List Byte} (h : Running i s) (hi : SkipsIdle i s)
    (hx : s.rx = 0xFF#8 :: rest) : step s = .next (s.afterIdle 1 0xFF#8 rest) := by
  rcases hi with ⟨hi, hp⟩ | ⟨⟨a, rfl⟩, hp⟩
  · exact h.step_idle hi hp hx
  · rw [h.step_row (by simp [hp]) (.tokenSkipped a hp (rxAnswer_cons s _ _ hx)), rxByte_cons hx]
    rfl

/-- Over any number of idle bytes only `TOK` and the stream move. -/
theorem Running.run_skip {i : Instr} {s : State} {k : Nat} {later : List Byte} (h : Running i s) (hi : SkipsIdle i s)
    (hx : s.rx = List.replicate k 0xFF#8 ++ later) :
    Host.Core.run Sys2Proof.core k s = .next (s.afterIdle k (if k = 0 then s.tok else 0xFF#8) later) := by
  induction k generalizing s with
  | zero =>
    obtain rfl : s.rx = later := hx
    simp [State.afterIdle]
  | succ k ih =>
    have hstep := h.step_skip (rest := List.replicate k 0xFF#8 ++ later) hi hx
    have htok : (if k = 0 then (s.afterIdle 1 0xFF#8 (List.replicate k 0xFF#8 ++ later)).tok else 0xFF#8) = 0xFF#8 :=
      ite_self _
    rw [run_succ k s _ hstep, ih (h.afterIdle 1 0xFF#8 _) hi rfl, htok, afterIdle_one_afterIdle, if_neg (by omega)]

/-- At a sound position in `SCAN` or `TOKEN` the operation in progress skips idle bytes. -/
theorem skipsIdle_of_positionOk {s : State} (h : positionOk s = true) (hb : s.busy = true)
    (hp : s.ph = .scan ∨ s.ph = .token) : SkipsIdle (decodeOp s.curOp s.opd) s := by
  have hframe : ∀ code arg, framing code arg s = false := by rcases hp with hp | hp <;> simp [framing, hp]
  have hshort : readingShort s = true → s.ph = .scan := by rcases hp with hp | hp <;> simp [readingShort, hp]
  have hext : readingExtended s = true → s.ph = .scan := by rcases hp with hp | hp <;> simp [readingExtended, hp]
  simp only [positionOk, hb, if_true] at h
  split at h
  case h_1 => simp [hframe] at h
  case h_2 hop => exact .inl ⟨.inl (.inl (by rw [hop]; rfl)), hshort h⟩
  case h_3 hop => exact .inl ⟨.inr (.inl (by rw [hop]; rfl)), hext h⟩
  case h_4 hop =>
    have hi : decodeOp s.curOp s.opd = .init := by rw [hop]; rfl
    cases hq : s.iseq with
    | sOff | sReady => simp [initPosition, hq] at h
    | sReset => rcases hp with hp | hp <;> simp [initPosition, hq, hp] at h
    | sCheckIf => exact .inl ⟨.inr (.inr ⟨hi, hq⟩), hext (by simpa [initPosition, hq, hframe] using h)⟩
    | sGoIdle | sAppCmd | sAppOpCond =>
      exact .inl ⟨.inl (.inr (.inl ⟨hi, by tauto⟩)), hshort (by simpa [initPosition, hq, hframe] using h)⟩
  case h_5 hop =>
    have hscan : s.ph = .scan := hp.resolve_right fun hp => by
      simp [wrblkPosition, hframe, readingShort, hp] at h
    exact .inl ⟨.inl (.inr (.inr (.inl ⟨_, by rw [hop]; rfl⟩))), hscan⟩
  case h_6 hop =>
    have hi : ∃ a, decodeOp s.curOp s.opd = .rdblk a := ⟨_, by rw [hop]; rfl⟩
    exact hp.imp (fun hp => ⟨.inl (.inr (.inr (.inr hi))), hp⟩) (fun hp => ⟨hi, hp⟩)
  case h_7 => simp at h

/-- Settles O57: a sound operation in `SCAN` or `TOKEN` skips idle bytes (`Running.run_skip`). -/
theorem idleSkipHangs : Obligations.IdleSkipHangs := by
  unfold Obligations.IdleSkipHangs
  intro n s later hinv hb hh hp hx
  exact Running.run_skip ⟨hh, hb, rfl⟩ (skipsIdle_of_positionOk (positionOk_of_inv hinv) hb hp) hx

/-! ## The counted phases -/

/-- Outside `SCAN` and `TOKEN` a row leaves the phase or counts one step of it, below the last index of a block. -/
theorem Row.leaves_or_counts {i : Instr} {s t : State} (h : Row i s t) (hidle : s.ph ≠ .idle) (hscan : s.ph ≠ .scan)
    (htoken : s.ph ≠ .token) : t.ph ≠ s.ph ∨ (t.ph = s.ph ∧ t.cnt = s.cnt + 1#10 ∧ s.cnt.toNat < 511) := by
  cases h
  case done => exact .inl hidle.symm
  case frameByte | preByte | capByte | leadIdle | writeByte | readByte | trailByte =>
    exact .inr ⟨rfl, rfl, by omega⟩
  all_goals exact .inl (by simp_all)

theorem ph_ne_idle_of_positionOk {s : State} (h : positionOk s = true) (hb : s.busy = true) : s.ph ≠ .idle := by
  intro hp
  simp only [positionOk, hb, if_true] at h
  split at h
  case h_4 =>
    unfold initPosition at h
    split at h <;> simp [framing, readingShort, readingExtended, hp] at h
  all_goals simp [wrblkPosition, rdblkPosition, framing, readingShort, readingExtended, hp] at h

/-- The state is at a sound position of an operation that the host leaves to the core. -/
structure Alone (s : State) : Prop where
  position : positionOk s = true
  busy : s.busy = true
  host : s.host = []

/-- A step left to the core leaves the phase, or counts in it and is again left to the core. -/
theorem Alone.step_leaves_or_counts {s : State} (h : Alone s) (hscan : s.ph ≠ .scan) (htoken : s.ph ≠ .token) :
    ∃ t, step s = .next t ∧
      (t.ph ≠ s.ph ∨ (t.ph = s.ph ∧ t.cnt.toNat = s.cnt.toNat + 1 ∧ s.cnt.toNat < 511 ∧ Alone t)) := by
  obtain ⟨hpos, hb, hh⟩ := h
  obtain ⟨t, hs, hpost⟩ := coreStep_position hpos
  obtain ⟨i, hrow, -⟩ := row_of_coreStep hb hpos hs
  have hidle := ph_ne_idle_of_positionOk hpos hb
  refine ⟨t, (step_nil s hh).trans hs, (hrow.leaves_or_counts hidle hscan htoken).imp_right ?_⟩
  rintro ⟨hp, hc, hlt⟩
  obtain ⟨-, -, -, hbt⟩ := hrow.completes_or_goes_on.resolve_left fun hdone => hidle (hp.symm.trans hdone.1)
  obtain ⟨-, -, hht⟩ := hrow.latches_eq
  refine ⟨hp, ?_, hlt, hpost, hbt.trans hb, hht.trans hh⟩
  rw [hc, BitVec.toNat_add, BitVec.toNat_ofNat]
  omega

/-- With at most `m` steps to the last index of a block, some `m + 1` steps or fewer leave the phase. -/
theorem Alone.run_leaves_phase (m : Nat) {s : State} (h : Alone s) (hscan : s.ph ≠ .scan) (htoken : s.ph ≠ .token)
    (hm : 511 ≤ s.cnt.toNat + m) :
    ∃ n t, 1 ≤ n ∧ n ≤ m + 1 ∧ Host.Core.run Sys2Proof.core n s = .next t ∧ t.ph ≠ s.ph := by
  induction m generalizing s with
  | zero =>
    obtain ⟨t, hs, hleft | ⟨-, -, hlt, -⟩⟩ := h.step_leaves_or_counts hscan htoken
    · exact ⟨1, t, le_rfl, le_rfl, by rw [run_succ 0 s t hs, run_zero], hleft⟩
    · omega
  | succ m ih =>
    obtain ⟨t, hs, hleft | ⟨hp, hc, -, ht⟩⟩ := h.step_leaves_or_counts hscan htoken
    · exact ⟨1, t, le_rfl, by omega, by rw [run_succ 0 s t hs, run_zero], hleft⟩
    · obtain ⟨n, u, h1, hn, hrun, hu⟩ := ih ht (hp ▸ hscan) (hp ▸ htoken) (by omega)
      exact ⟨n + 1, u, by omega, by omega, by rw [run_succ n s t hs, hrun], hp ▸ hu⟩

/-- Settles O59: from any index there are at most 511 steps to the last one of a block. -/
theorem countedPhasesEnd : Obligations.CountedPhasesEnd := by
  unfold Obligations.CountedPhasesEnd
  intro s hinv hb hh hscan htoken
  exact Alone.run_leaves_phase 511 ⟨positionOk_of_inv hinv, hb, hh⟩ hscan htoken (by omega)

end Sys2Proof.Machine
end

section
/-! PROOFS of the run of a command and its short response, and of the retry hang of INIT (60_exceptions.md R240). -/

namespace Sys2Proof.Machine

open Sys2Proof.Safety

/-! ## The bytes sent -/

@[simp] theorem sentBytes_append (new old : List Event) : sentBytes (new ++ old) = sentBytes new ++ sentBytes old := by
  induction new with
  | nil => rfl
  | cons e rest ih => cases e <;> simp only [List.cons_append, sentBytes, ih]

@[simp] theorem sentBytes_tx (bytes : List Byte) : sentBytes (bytes.map Event.tx) = bytes := by
  induction bytes with
  | nil => rfl
  | cons b rest ih => rw [List.map_cons, sentBytes, ih]

@[simp] theorem sentBytes_rx (bytes : List Byte) : sentBytes (bytes.map Event.rx) = [] := by
  induction bytes with
  | nil => rfl
  | cons b rest ih => rw [List.map_cons, sentBytes, ih]

@[simp] theorem sentBytes_idle (k : Nat) (b : Byte) : sentBytes (List.replicate k (Event.rx b)) = [] := by
  rw [← List.map_replicate, sentBytes_rx]

/-! ## A command and its response (41_command_framer.md R151, 42_response_reader.md R161) -/

/-- A run through a counted phase: step `n` leads from `f n` to `f (n + 1)`. -/
theorem run_counted {f : Nat → State} {s : State} {m : Nat} (hzero : f 0 = s)
    (h : ∀ n < m, step (f n) = .next (f (n + 1))) : Host.Core.run Sys2Proof.core m s = .next (f m) := by
  subst hzero
  induction m with
  | zero => rfl
  | succ m ih =>
    rw [run_add m 1 _ _ (ih fun n hn => h n (by omega)), run_succ 0 _ _ (h m (by omega)), run_zero]

/-- A run that goes on from where another ends. -/
theorem run_trans {j k : Nat} {s t u : State} (h : Host.Core.run Sys2Proof.core j s = .next t)
    (hk : Host.Core.run Sys2Proof.core k t = .next u) : Host.Core.run Sys2Proof.core (j + k) s = .next u :=
  (run_add j k s t h).trans hk

/-- A run of `m + 1` steps whose last step is a row. -/
theorem Running.run_snoc {i : Instr} {m : Nat} {s u t : State} (h : Host.Core.run Sys2Proof.core m s = .next u)
    (hu : Running i u) (hp : u.ph ≠ .frame) (hr : Row i u t) : Host.Core.run Sys2Proof.core (m + 1) s = .next t :=
  run_trans h (run_succ 0 u t (hu.step_row hp hr))

/-- `i` is at the start of the frame that it sends, with its command in `FRM`. -/
structure Commanding (i : Instr) (s : State) : Prop where
  running : Running i s
  phase : s.ph = .frame
  cnt : s.cnt = 0#10
  built : ∃ code arg, s.frm = buildFrame code arg
  reads : s.curOp = 0x7#4 ∨ s.curOp = 0x8#4 ∨ s.curOp = 0x9#4

theorem Commanding.sending {i : Instr} {s : State} (h : Commanding i s) : Sending s := by
  obtain ⟨code, arg, hf⟩ := h.built
  obtain ⟨hstart, hlast⟩ := buildFrame_ends code arg
  exact ⟨h.running.host, h.running.busy, h.phase, hf ▸ hstart, hf ▸ hlast⟩

/-- `s` after the six bytes of its frame, about to read the response. -/
def State.sentFrame (s : State) : State :=
  { s with cnt := 6#10, ph := .scan, xn := s.xn + 6, wire := (s.frm.toList.map Event.tx).reverse ++ s.wire }

theorem Commanding.run_frame {i : Instr} {s : State} (h : Commanding i s) :
    Host.Core.run Sys2Proof.core 6 s = .next s.sentFrame := by
  refine h.sending.run_frame h.cnt ?_
  rw [afterFrame_scan h.reads]
  simp [State.afterBytes, State.sentFrame, List.take_of_length_le]

theorem Commanding.running_sentFrame {i : Instr} {s : State} (h : Commanding i s) : Running i s.sentFrame :=
  ⟨h.running.host, h.running.busy, h.running.op⟩

/-- `s` in `DISC`, after its frame, `k` idle bytes and the short response `v`, with the answers `later` to come. -/
def State.heardShort (s : State) (k : Nat) (v : Byte) (later : List Byte) : State :=
  { s with
    cnt := 6#10, ph := .disc, rx := later, tok := v, resp := s.resp.set 0 v, respLen := .short1, xn := s.xn + (k + 7),
    wire := .rx v :: (List.replicate k (.rx 0xFF#8) ++ ((s.frm.toList.map Event.tx).reverse ++ s.wire)) }

theorem sentBytes_heardShort (s : State) (k : Nat) (v : Byte) (later : List Byte) :
    (sentBytes (s.heardShort k v later).wire).reverse = (sentBytes s.wire).reverse ++ s.frm.toList := by
  simp [State.heardShort, sentBytes, ← List.map_reverse]

theorem Commanding.running_heardShort {i : Instr} {s : State} (h : Commanding i s) (k : Nat) (v : Byte)
    (later : List Byte) : Running i (s.heardShort k v later) :=
  ⟨h.running.host, h.running.busy, h.running.op⟩

/-- A command, `k` idle bytes, a short response and the discarded byte take `k + 8` steps; the last is the row that the
response selects. -/
theorem Commanding.run_short {i : Instr} {s t : State} {k : Nat} {v : Byte} {later : List Byte} (h : Commanding i s)
    (hi : ReadsShort i s) (hx : s.rx = List.replicate k 0xFF#8 ++ v :: later) (hv : v ≠ 0xFF#8)
    (hrow : Row i (s.heardShort k v later) t) : Host.Core.run Sys2Proof.core (k + 8) s = .next t := by
  have hresp : Host.Core.run Sys2Proof.core (6 + (k + 1)) s = .next (s.heardShort k v later) := by
    have hxn : s.xn + 6 + (k + 1) = s.xn + (k + 7) := by omega
    rw [run_add 6 (k + 1) s _ h.run_frame, h.running_sentFrame.run_short hi rfl hx hv]
    simp [State.sentFrame, State.heardShort, hxn]
  rw [show k + 8 = 6 + (k + 1) + 1 by omega]
  exact (h.running_heardShort k v later).run_snoc hresp nofun hrow

/-! ## INIT: from one command to the next (43_init_sequencer.md R186) -/

/-- `s` with INIT at the start of the frame of `code` and `arg`, in sequencer state `q`. -/
def State.nextCommand (s : State) (q : ISeq) (code : BitVec 6) (arg : BitVec 32) : State :=
  { s with iseq := q, frm := buildFrame code arg, cnt := 0#10, ph := .frame }

/-- INIT is at the start of the frame of `code` and `arg`, in sequencer state `q`. -/
structure InitAt (q : ISeq) (code : BitVec 6) (arg : BitVec 32) (s : State) : Prop where
  host : s.host = []
  busy : s.busy = true
  op : s.curOp = 0x7#4
  state : s.iseq = q
  phase : s.ph = .frame
  cnt : s.cnt = 0#10
  frm : s.frm = buildFrame code arg

theorem InitAt.running {q : ISeq} {code : BitVec 6} {arg : BitVec 32} {s : State} (h : InitAt q code arg s) :
    Running .init s :=
  ⟨h.host, h.busy, (decodeOp_eq_init_iff _ _).mpr h.op⟩

theorem InitAt.commanding {q : ISeq} {code : BitVec 6} {arg : BitVec 32} {s : State} (h : InitAt q code arg s) :
    Commanding .init s :=
  ⟨h.running, h.phase, h.cnt, ⟨code, arg, h.frm⟩, .inl h.op⟩

/-- INIT's coming command after a short response. -/
def State.afterShort (s : State) (k : Nat) (v d : Byte) (later : List Byte) (q : ISeq) (code : BitVec 6)
    (arg : BitVec 32) : State :=
  (rxByte (s.heardShort k v (d :: later))).nextCommand q code arg

/-- A round of INIT with a short response: the command, `k` idle bytes, the response `v` and the discarded byte `d`, and
INIT is at the start of the next command. -/
theorem InitAt.round_short {q q' : ISeq} {code code' : BitVec 6} {arg arg' : BitVec 32} {s : State} {k : Nat}
    {v d : Byte} {later : List Byte} (h : InitAt q code arg s) (hq : q = .sGoIdle ∨ q = .sAppCmd ∨ q = .sAppOpCond)
    (hx : s.rx = List.replicate k 0xFF#8 ++ v :: d :: later) (hv : v ≠ 0xFF#8)
    (hrow : Row .init (s.heardShort k v (d :: later)) (s.afterShort k v d later q' code' arg')) :
    Host.Core.run Sys2Proof.core (k + 8) s = .next (s.afterShort k v d later q' code' arg') ∧
      InitAt q' code' arg' (s.afterShort k v d later q' code' arg') :=
  ⟨h.commanding.run_short (.inr (.inl ⟨rfl, h.state ▸ hq⟩)) hx hv hrow, h.host, h.busy, h.op, rfl, rfl, rfl, rfl⟩

theorem sentBytes_afterShort (s : State) (k : Nat) (v d : Byte) (later : List Byte) (q : ISeq) (code : BitVec 6)
    (arg : BitVec 32) :
    (sentBytes (s.afterShort k v d later q code arg).wire).reverse = (sentBytes s.wire).reverse ++ s.frm.toList :=
  sentBytes_heardShort s k v (d :: later)

/-! ## The retry hang (43_init_sequencer.md R184) -/

/-- The bytes of `CMD55`'s frame (30_encoding.md R117; its code is PRESUMED, log 6). -/
theorem cmd55_bytes : (buildFrame Config.cmd55 0#32).toList = [0x77#8, 0x00#8, 0x00#8, 0x00#8, 0x00#8, 0x65#8] := by
  decide +kernel

/-- A sound INIT in phase `FRAME` of `S_APP_CMD` sends `CMD55`. -/
theorem initAt_of_positionOk {s : State} (h : positionOk s = true) (hb : s.busy = true) (hh : s.host = [])
    (hop : s.curOp = 0x7#4) (hq : s.iseq = .sAppCmd) (hp : s.ph = .frame) (hc : s.cnt = 0#10) :
    InitAt .sAppCmd Config.cmd55 0#32 s := by
  have hf : framing Config.cmd55 0#32 s = true := by
    simpa [positionOk, hb, hop, initPosition, hq, readingShort, hp] using h
  simp only [framing, Bool.and_eq_true, beq_iff_eq] at hf
  exact ⟨hh, hb, hop, hq, hp, hc, hf.2⟩

/-- Settles O58: each answer is a round (`InitAt.round_short`) that ends where it began. -/
theorem initRetryHangs : Obligations.InitRetryHangs := by
  unfold Obligations.InitRetryHangs
  intro answers s later hinv hb hh hop hq hp hc hne hx
  have hat := initAt_of_positionOk (positionOk_of_inv hinv) hb hh hop hq hp hc
  clear hinv hb hh hop hq hp hc
  induction answers generalizing s with
  | nil => exact ⟨s, rfl, hat.busy, hat.state, hat.phase, hat.cnt, rfl, rfl, rfl, hx, by simp⟩
  | cons answer rest ih =>
    obtain ⟨v, d⟩ := answer
    obtain ⟨hidle, hready⟩ := hne (v, d) List.mem_cons_self
    obtain ⟨hround, hnext⟩ := hat.round_short (k := 0) (.inr (.inl rfl)) hx hidle
      (.initFrame _ _ _ _ rfl (.inr (.inr (.inr (.inr (.inr (.inl ⟨hat.state, by simpa [State.heardShort], rfl, rfl, rfl⟩)))))))
    obtain ⟨t, hrun, hbusy, hiseq, hph, hcnt, hok, hval, hxn, hrx, hsent⟩ :=
      ih _ (fun p hp => hne p (List.mem_cons_of_mem _ hp)) rfl hnext
    refine ⟨t, ?_, hbusy, hiseq, hph, hcnt, hok, hval, ?_, hrx, ?_⟩
    · rw [List.length_cons, Nat.mul_succ, Nat.add_comm, run_add _ _ _ _ hround, hrun]
    · rw [hxn, List.length_cons, Nat.mul_succ]
      simp [State.afterShort, State.nextCommand, State.heardShort]
      omega
    · rw [hsent, sentBytes_afterShort, hat.frm, cmd55_bytes, List.length_cons, List.replicate_succ, List.flatten_cons,
        List.append_assoc]

end Sys2Proof.Machine
end

section
/-! PROOFS of the acceptance of WRBLK and RDBLK and of a whole WRBLK (44_block_io.md R200 to R207). -/

namespace Sys2Proof.Machine

open Sys2Proof.Safety

/-! ## Acceptance of a block operation -/

/-- `s` after the acceptance of WRBLK or RDBLK, at the start of the frame of its command `code`. -/
def State.acceptedBlock (s : State) (op : BitVec 4) (operand : BitVec 40) (code : BitVec 6) : State :=
  { s with
    host := [], curOp := op, opd := operand, busy := true, frm := buildFrame code (operand.extractLsb' 0 32),
    cnt := 0#10, ph := .frame }

theorem commanding_acceptedBlock (s : State) {op : BitVec 4} (operand : BitVec 40) (code : BitVec 6)
    (hop : op = 0x8#4 ∨ op = 0x9#4) : Commanding (decodeOp op operand) (s.acceptedBlock op operand code) :=
  ⟨⟨rfl, rfl, rfl⟩, rfl, rfl, ⟨code, _, rfl⟩, .inr hop⟩

theorem window_acceptedBlock (s : State) (op : BitVec 4) (operand : BitVec 40) (code : BitVec 6) :
    (s.acceptedBlock op operand code).window = s.window := rfl

theorem step_wrblk {s : State} {operand : BitVec 40} (hb : s.busy = false) (hp : s.ph = .idle)
    (hh : s.host = [.writeReq (0x8#4 ++ operand)]) : step s = .next (s.acceptedBlock 0x8#4 operand Config.cmd24) := by
  rw [step_request s _ operand [] hh hb]
  exact Row.exec (.enterWrite _ _ hp)

theorem step_rdblk {s : State} {operand : BitVec 40} (hb : s.busy = false) (hp : s.ph = .idle)
    (hh : s.host = [.writeReq (0x9#4 ++ operand)]) : step s = .next (s.acceptedBlock 0x9#4 operand Config.cmd17) := by
  rw [step_request s _ operand [] hh hb]
  exact Row.exec (.enterRead _ _ hp)

/-! ## Idle bytes sent in a counted phase (43_init_sequencer.md R181, 44_block_io.md R202) -/

/-- `s` after the first `n` idle bytes of the preamble or of the lead-in. -/
def State.sentIdle (s : State) (n : Nat) : State :=
  { s with cnt := BitVec.ofNat 10 n, xn := s.xn + n, wire := List.replicate n (.tx 0xFF#8) ++ s.wire }

theorem Running.sentIdle {i : Instr} {s : State} (h : Running i s) (n : Nat) : Running i (s.sentIdle n) :=
  ⟨h.host, h.busy, h.op⟩

/-- From `CNT` = 0 `m` steps send `m` idle bytes, where each is a row that sends one and counts. -/
theorem Running.run_idleBytes {i : Instr} {s : State} {m : Nat} (h : Running i s) (hp : s.ph ≠ .frame)
    (hc : s.cnt = 0#10) (hm : m < 1024)
    (hrow : ∀ u, u.ph = s.ph → u.iseq = s.iseq → u.cnt.toNat < m →
      Row i u { txByte Config.idle u with cnt := u.cnt + 1#10 }) :
    Host.Core.run Sys2Proof.core m s = .next (s.sentIdle m) := by
  refine run_counted (f := s.sentIdle) (by simp [State.sentIdle, ← hc]) fun n hn => ?_
  have hcnt : (s.sentIdle n).cnt.toNat = n := by
    rw [State.sentIdle, BitVec.toNat_ofNat]
    omega
  rw [(h.sentIdle n).step_row hp (hrow _ rfl rfl (by omega))]
  simp [State.sentIdle, txByte, Config.idle, List.replicate_succ, BitVec.ofNat_add, Nat.add_assoc]

/-! ## WRBLK (44_block_io.md R200 to R207) -/

/-- `s` after the lead-in: two idle bytes and the token. -/
def State.sentLead (s : State) : State := { txByte Config.token (s.sentIdle 2) with ph := .data, cnt := 0#10 }

theorem Running.run_lead {a : BitVec 32} {s : State} (h : Running (.wrblk a) s) (hp : s.ph = .lead)
    (hc : s.cnt = 0#10) : Host.Core.run Sys2Proof.core 3 s = .next s.sentLead := by
  have hne : s.ph ≠ .frame := by simp [hp]
  have hidle := h.run_idleBytes (m := 2) hne hc (by decide) fun u hu _ hlt => .leadIdle a u (hu.trans hp) hlt
  exact (h.sentIdle 2).run_snoc hidle hne (.leadToken a _ hp rfl)

/-- `s` after the first `n` bytes of `WRBUF`. -/
def State.sentData (s : State) (n : Nat) : State :=
  { s with
    cnt := BitVec.ofNat 10 n, xn := s.xn + n,
    wire := (((List.range n).map (Memory.byteAt .wr s.wrbuf)).map Event.tx).reverse ++ s.wire }

theorem Running.sentData {i : Instr} {s : State} (h : Running i s) (n : Nat) : Running i (s.sentData n) :=
  ⟨h.host, h.busy, h.op⟩

/-- One more byte of `WRBUF`. -/
theorem txByte_sentData (s : State) (n : Nat) :
    { txByte (wrbufByte s n) (s.sentData n) with cnt := BitVec.ofNat 10 (n + 1) } = s.sentData (n + 1) := by
  simp [State.sentData, txByte, wrbufByte, List.range_succ, Nat.add_assoc]

/-- `DATA` sends `WRBUF` whole, in order (44_block_io.md R206). -/
theorem Running.run_payload {a : BitVec 32} {s : State} (h : Running (.wrblk a) s) (hp : s.ph = .data)
    (hc : s.cnt = 0#10) : Host.Core.run Sys2Proof.core 512 s = .next { s.sentData 512 with ph := .wresp } := by
  have hne : s.ph ≠ .frame := by simp [hp]
  have hbytes : Host.Core.run Sys2Proof.core 511 s = .next (s.sentData 511) := by
    refine run_counted (by simp [State.sentData, ← hc]) fun n hn => ?_
    have hcnt : (s.sentData n).cnt.toNat = n := by
      rw [State.sentData, BitVec.toNat_ofNat]
      omega
    rw [(h.sentData n).step_row hne (.writeByte a _ hp (by omega)), ← txByte_sentData, hcnt]
    simp only [State.sentData, BitVec.ofNat_add]
    rfl
  have hlast := (h.sentData 511).run_snoc hbytes hne (.writeLast a (s.sentData 511) hp rfl)
  rw [← txByte_sentData s 511]
  exact hlast

/-- The payload is what the host's window of `WRBUF` shows. -/
theorem map_window_wr (s : State) :
    (List.finRange 512).map (fun i => s.window .wr i) = (List.range 512).map (Memory.byteAt .wr s.wrbuf) := by
  rw [← List.map_coe_finRange_eq_range, List.map_map]
  rfl

/-- `s` after the lead-in and the whole payload: WRBLK is about to read the card's answer. -/
def State.sentBlock (s : State) : State :=
  { s with
    cnt := 512#10, ph := .wresp, xn := s.xn + 515,
    wire := (((List.range 512).map (Memory.byteAt .wr s.wrbuf)).map Event.tx).reverse ++
      (.tx Config.token :: .tx 0xFF#8 :: .tx 0xFF#8 :: s.wire) }

theorem Running.sentBlock {i : Instr} {s : State} (h : Running i s) : Running i s.sentBlock :=
  ⟨h.host, h.busy, h.op⟩

theorem sentData_sentLead (s : State) : { s.sentLead.sentData 512 with ph := .wresp } = s.sentBlock := by
  simp [State.sentBlock, State.sentLead, State.sentData, State.sentIdle, List.replicate_succ, Nat.add_assoc]

theorem Running.run_block {a : BitVec 32} {s : State} (h : Running (.wrblk a) s) (hp : s.ph = .lead)
    (hc : s.cnt = 0#10) : Host.Core.run Sys2Proof.core 515 s = .next s.sentBlock := by
  have hpayload := Running.run_payload (a := a) (s := s.sentLead) ⟨h.host, h.busy, h.op⟩ rfl rfl
  rw [sentData_sentLead] at hpayload
  exact run_trans (h.run_lead hp hc) hpayload

/-- The lead-in, the token and the payload, in order (44_block_io.md R202, R206). -/
theorem sentBytes_sentBlock (s : State) :
    (sentBytes s.sentBlock.wire).reverse =
      (sentBytes s.wire).reverse ++ [0xFF#8, 0xFF#8, 0xFE#8] ++ (List.finRange 512).map (fun i => s.window .wr i) := by
  simp only [State.sentBlock, sentBytes_append, ← List.map_reverse, sentBytes_tx, List.reverse_append,
    List.reverse_reverse, map_window_wr, sentBytes]
  simp [Config.token]

/-- `s` after WRBLK has read the card's answer `b` (44_block_io.md R204). -/
def State.answered (s : State) (b : Byte) (later : List Byte) : State :=
  { s with
    tok := b, rx := later, xn := s.xn + 1, wire := .rx b :: s.wire, ok := decide (b = Config.wrAccept), val := 0#40,
    busy := false, ph := .idle }

theorem Row.writeAnswered {s : State} {b : Byte} {later : List Byte} (a : BitVec 32) (hp : s.ph = .wresp)
    (hx : s.rx = b :: later) : Row (.wrblk a) s (s.answered b later) := by
  have hrow := Row.writeEnd a s hp
  rwa [readTok, rxByte_cons hx, rxAnswer_cons s b later hx] at hrow

theorem sentBytes_answered (s : State) (b : Byte) (later : List Byte) :
    sentBytes (s.answered b later).wire = sentBytes s.wire := rfl

/-- `s` with the command of WRBLK accepted, at the start of the lead-in. -/
def State.acceptedWrite (s : State) (k : Nat) (d : Byte) (later : List Byte) : State :=
  { rxByte (s.heardShort k 0x00#8 (d :: later)) with ph := .lead, cnt := 0#10 }

theorem Commanding.running_acceptedWrite {i : Instr} {s : State} (h : Commanding i s) (k : Nat) (d : Byte)
    (later : List Byte) : Running i (s.acceptedWrite k d later) :=
  ⟨h.running.host, h.running.busy, h.running.op⟩

theorem sentBytes_acceptedWrite (s : State) (k : Nat) (d : Byte) (later : List Byte) :
    (sentBytes (s.acceptedWrite k d later).wire).reverse = (sentBytes s.wire).reverse ++ s.frm.toList :=
  sentBytes_heardShort s k 0x00#8 (d :: later)

theorem window_wr_acceptedWrite (s : State) (k : Nat) (d : Byte) (later : List Byte) :
    (s.acceptedWrite k d later).window .wr = s.window .wr := rfl

/-- WRBLK from its command to the card's answer. -/
theorem Commanding.run_write {a : BitVec 32} {s : State} {k : Nat} {d b : Byte} {later : List Byte}
    (h : Commanding (.wrblk a) s) (hx : s.rx = List.replicate k 0xFF#8 ++ 0x00#8 :: d :: b :: later) :
    Host.Core.run Sys2Proof.core (k + 8 + 515 + 1) s =
      .next ((s.acceptedWrite k d (b :: later)).sentBlock.answered b later) := by
  have hlead := h.running_acceptedWrite k d (b :: later)
  have hcommand : Host.Core.run Sys2Proof.core (k + 8) s = .next (s.acceptedWrite k d (b :: later)) :=
    h.run_short (.inr (.inr (.inl ⟨a, rfl⟩))) hx (by decide) (.writeAccepted a _ rfl (by simp [State.heardShort]))
  have hsent := run_trans hcommand (hlead.run_block rfl rfl)
  exact hlead.sentBlock.run_snoc hsent nofun (.writeAnswered a rfl rfl)

/-- Settles O53: acceptance, and WRBLK from its command to the card's answer (`Commanding.run_write`). -/
theorem wrblkRun : Obligations.WrblkRun := by
  unfold Obligations.WrblkRun
  intro s operand k d b later hb hp hh hx
  have hcmd := commanding_acceptedBlock s operand Config.cmd24 (.inl rfl)
  have hrun := Commanding.run_write (a := operand.extractLsb' 0 32) hcmd hx
  rw [show 525 + k = k + 8 + 515 + 1 + 1 by omega, run_succ _ s _ (step_wrblk hb hp hh)]
  refine ⟨_, hrun, ?_, ?_, ?_, ?_, ?_, ?_, ?_, ?_, ?_, ?_, ?_, ?_, ?_, ?xn, ?_, ?sent⟩
  case sent =>
    rw [sentBytes_answered, sentBytes_sentBlock, sentBytes_acceptedWrite, window_wr_acceptedWrite]
    rfl
  case xn =>
    simp [State.answered, State.sentBlock, State.acceptedWrite, State.heardShort, State.acceptedBlock]
    omega
  all_goals simp [State.answered, State.sentBlock, State.acceptedWrite, State.heardShort, State.acceptedBlock]

end Sys2Proof.Machine
end

section
/-! PROOFS of the failed runs of WRBLK and RDBLK and of a whole RDBLK (44_block_io.md R201, R210 to R219). -/

namespace Sys2Proof.Machine

open Sys2Proof.Safety

/-! ## A rejected command (60_exceptions.md R230: W1 and R1) -/

/-- `s` with its command rejected: the block operation has failed with the response `v` in `RESP[0]`. -/
def State.rejected (s : State) (k : Nat) (v d : Byte) (later : List Byte) : State :=
  { rxByte (s.heardShort k v (d :: later)) with ok := false, val := 0#40, busy := false, ph := .idle }

/-- A block operation whose command is rejected fails with the discarded byte. -/
theorem Commanding.run_rejected {i : Instr} {s : State} {k : Nat} {v d : Byte} {later : List Byte}
    (h : Commanding i s) (hi : (∃ a, i = .wrblk a) ∨ (∃ a, i = .rdblk a))
    (hx : s.rx = List.replicate k 0xFF#8 ++ v :: d :: later) (hidle : v ≠ 0xFF#8) (hready : v ≠ 0x00#8) :
    Host.Core.run Sys2Proof.core (k + 8) s = .next (s.rejected k v d later) :=
  h.run_short (.inr (.inr hi)) hx hidle (.commandRejected i _ hi rfl (by simpa [State.heardShort]))

theorem sentBytes_rejected (s : State) (k : Nat) (v d : Byte) (later : List Byte) :
    (sentBytes (s.rejected k v d later).wire).reverse = (sentBytes s.wire).reverse ++ s.frm.toList :=
  sentBytes_heardShort s k v (d :: later)

/-- Settles O54: acceptance and the rejected command. -/
theorem wrblkRejectedRun : Obligations.WrblkRejectedRun := by
  unfold Obligations.WrblkRejectedRun
  intro s operand k v d later hb hp hh hx hidle hready
  have hcmd := commanding_acceptedBlock s operand Config.cmd24 (.inl rfl)
  have hrun := hcmd.run_rejected (.inl ⟨_, rfl⟩) hx hidle hready
  rw [show 9 + k = k + 8 + 1 by omega, run_succ _ s _ (step_wrblk hb hp hh)]
  refine ⟨_, hrun, ?_, ?_, ?_, ?_, ?_, ?_, ?_, ?_, ?_, ?_, ?_, ?_, ?xn, ?_, ?sent⟩
  case sent =>
    rw [sentBytes_rejected]
    rfl
  case xn =>
    simp [State.rejected, State.heardShort, State.acceptedBlock]
    omega
  all_goals simp [State.rejected, State.heardShort, State.acceptedBlock]

/-! ## RDBLK to the token (44_block_io.md R210, R211) -/

/-- `s` with the command of RDBLK accepted, in `TOKEN`. -/
def State.acceptedRdblk (s : State) (k : Nat) (d : Byte) (later : List Byte) : State :=
  { rxByte (s.heardShort k 0x00#8 (d :: later)) with ph := .token }

theorem Commanding.running_acceptedRdblk {i : Instr} {s : State} (h : Commanding i s) (k : Nat) (d : Byte)
    (later : List Byte) : Running i (s.acceptedRdblk k d later) :=
  ⟨h.running.host, h.running.busy, h.running.op⟩

theorem sentBytes_acceptedRdblk (s : State) (k : Nat) (d : Byte) (later : List Byte) :
    (sentBytes (s.acceptedRdblk k d later).wire).reverse = (sentBytes s.wire).reverse ++ s.frm.toList :=
  sentBytes_heardShort s k 0x00#8 (d :: later)

theorem window_acceptedRdblk (s : State) (k : Nat) (d : Byte) (later : List Byte) :
    (s.acceptedRdblk k d later).window = s.window := rfl

theorem Commanding.run_to_token {a : BitVec 32} {s : State} {k : Nat} {d : Byte} {later : List Byte}
    (h : Commanding (.rdblk a) s) (hx : s.rx = List.replicate k 0xFF#8 ++ 0x00#8 :: d :: later) :
    Host.Core.run Sys2Proof.core (k + 8) s = .next (s.acceptedRdblk k d later) :=
  h.run_short (.inr (.inr (.inr ⟨a, rfl⟩))) hx (by decide) (.readAccepted a _ rfl (by simp [State.heardShort]))

/-- A run over `m` idle bytes and the byte `v` in `TOKEN`, from the row that `v` selects. -/
theorem Running.run_token {a : BitVec 32} {s t : State} {m : Nat} {v : Byte} {later : List Byte}
    (h : Running (.rdblk a) s) (hp : s.ph = .token) (hx : s.rx = List.replicate m 0xFF#8 ++ v :: later)
    (hrow : ∀ tok, Row (.rdblk a) (s.afterIdle m tok (v :: later)) t) :
    Host.Core.run Sys2Proof.core (m + 1) s = .next t :=
  (h.afterIdle m _ _).run_snoc (h.run_skip (.inr ⟨⟨a, rfl⟩, hp⟩) hx) (by simp [State.afterIdle, hp]) (hrow _)

/-- `s` after `m` idle bytes and the byte `v` in place of the token: RDBLK has failed (R2). -/
def State.badToken (s : State) (m : Nat) (v : Byte) (later : List Byte) : State :=
  { s with
    tok := v, rx := later, xn := s.xn + m + 1, wire := .rx v :: (List.replicate m (.rx 0xFF#8) ++ s.wire), ok := false,
    val := 0#40, busy := false, ph := .idle }

theorem Running.run_badToken {a : BitVec 32} {s : State} {m : Nat} {v : Byte} {later : List Byte}
    (h : Running (.rdblk a) s) (hp : s.ph = .token) (hx : s.rx = List.replicate m 0xFF#8 ++ v :: later)
    (hidle : v ≠ 0xFF#8) (htoken : v ≠ 0xFE#8) :
    Host.Core.run Sys2Proof.core (m + 1) s = .next (s.badToken m v later) :=
  h.run_token hp hx fun _ => .tokenBad a _ hp (isIdleByte_of_ne hidle) htoken

/-- Settles O56: acceptance and the rejected command, or the accepted command and the bad token. -/
theorem rdblkFailedRuns : Obligations.RdblkFailedRuns := by
  unfold Obligations.RdblkFailedRuns
  intro s operand k d later hb hp hh
  have hcmd := commanding_acceptedBlock s operand Config.cmd17 (.inr rfl)
  constructor
  · intro v hidle hready hx
    have hrun := hcmd.run_rejected (.inr ⟨_, rfl⟩) hx hidle hready
    rw [show 9 + k = k + 8 + 1 by omega, run_succ _ s _ (step_rdblk hb hp hh)]
    refine ⟨_, hrun, ?_, ?_, ?_, ?_, ?_, ?_, ?_, ?_, ?_, ?_, ?_, ?_, ?xn, ?_⟩
    case xn =>
      simp [State.rejected, State.heardShort, State.acceptedBlock]
      omega
    all_goals simp [State.rejected, State.heardShort, State.acceptedBlock]
  · intro m v hidle htoken hx
    have htok := Running.run_badToken (a := operand.extractLsb' 0 32) (m := m) (later := later)
      (hcmd.running_acceptedRdblk k d _) rfl rfl hidle htoken
    have hrun := run_trans (Commanding.run_to_token (a := operand.extractLsb' 0 32) hcmd hx) htok
    rw [show 10 + k + m = k + 8 + (m + 1) + 1 by omega, run_succ _ s _ (step_rdblk hb hp hh)]
    refine ⟨_, hrun, ?_, ?_, ?_, ?_, ?_, ?_, ?_, ?_, ?_, ?_, ?_, ?_, ?_, ?xn, ?_⟩
    case xn =>
      simp [State.badToken, State.acceptedRdblk, State.heardShort, State.acceptedBlock]
      omega
    all_goals simp [State.badToken, State.acceptedRdblk, State.heardShort, State.acceptedBlock]

/-! ## The block that RDBLK receives (44_block_io.md R212, R213) -/

/-- The buffer `m` after the first `n` bytes of `bytes`, stored at their indices. -/
def Memory.filled (m : Memory) (bytes : List Byte) : Nat → Memory
  | 0 => m
  | n + 1 => Memory.write (Memory.filled m bytes n) n (bytes.getD n 0#8)

theorem Memory.byteAt_filled (b : BufId) (m : Memory) (bytes : List Byte) (n a : Nat) :
    Memory.byteAt b (Memory.filled m bytes n) a = if a < n then bytes.getD a 0#8 else Memory.byteAt b m a := by
  induction n with
  | zero => rfl
  | succ n ih =>
    by_cases ha : a = n
    · subst ha
      rw [Memory.filled, Memory.byteAt_write_same, if_pos (Nat.lt_succ_self a)]
    · rw [Memory.filled, Memory.byteAt_write_other _ _ _ _ _ ha, ih]
      simp only [Nat.lt_succ_iff_lt_or_eq, ha, or_false]

/-- `s` after the first `n` bytes of `bytes` in `DATA` of RDBLK, with the answers `later` after them. -/
def State.received (s : State) (bytes later : List Byte) (n : Nat) : State :=
  { s with
    rxA := if s.sel then s.rxA else Memory.filled s.rxA bytes n,
    rxB := if s.sel then Memory.filled s.rxB bytes n else s.rxB,
    cnt := BitVec.ofNat 10 n, rx := bytes.drop n ++ later, xn := s.xn + n,
    wire := ((bytes.take n).map Event.rx).reverse ++ s.wire }

theorem Running.received {i : Instr} {s : State} (h : Running i s) (bytes later : List Byte) (n : Nat) :
    Running i (s.received bytes later n) :=
  ⟨h.host, h.busy, h.op⟩

theorem rx_received {s : State} {bytes later : List Byte} {n : Nat} (hn : n < bytes.length) :
    (s.received bytes later n).rx = bytes.getD n 0#8 :: (bytes.drop (n + 1) ++ later) := by
  rw [State.received, List.drop_eq_getElem_cons hn, List.cons_append, List.getD_eq_getElem _ _ hn]

/-- One more byte received. -/
theorem storeRx_received {s : State} {bytes later : List Byte} {n : Nat} (hn : n < bytes.length) :
    { storeRx n (rxAnswer (s.received bytes later n)) (rxByte (s.received bytes later n)) with
      cnt := BitVec.ofNat 10 (n + 1) } = s.received bytes later (n + 1) := by
  have htake : bytes.take (n + 1) = bytes.take n ++ [bytes.getD n 0#8] := by
    rw [List.take_succ_eq_append_getElem hn]
    simp [hn]
  rw [rxByte_cons (rx_received hn), rxAnswer_cons _ _ _ (rx_received hn)]
  cases hs : s.sel <;> simp [State.received, storeRx, Memory.filled, hs, htake, Nat.add_assoc]

/-- `s` after the whole block `bytes`, at the start of `TRAIL`. -/
def State.receivedBlock (s : State) (bytes later : List Byte) : State :=
  { s with
    rxA := if s.sel then s.rxA else Memory.filled s.rxA bytes 512,
    rxB := if s.sel then Memory.filled s.rxB bytes 512 else s.rxB,
    cnt := 0#10, ph := .trail, rx := later, xn := s.xn + 512, wire := (bytes.map Event.rx).reverse ++ s.wire }

theorem Running.receivedBlock {i : Instr} {s : State} (h : Running i s) (bytes later : List Byte) :
    Running i (s.receivedBlock bytes later) :=
  ⟨h.host, h.busy, h.op⟩

theorem received_all {s : State} {bytes later : List Byte} (hlen : bytes.length = 512) :
    { s.received bytes later 512 with ph := .trail, cnt := 0#10 } = s.receivedBlock bytes later := by
  simp [State.received, State.receivedBlock, List.take_of_length_le hlen.le, List.drop_of_length_le hlen.le]

/-- `DATA` of RDBLK stores 512 bytes, whatever they are (44_block_io.md R212). -/
theorem Running.run_data {a : BitVec 32} {s : State} {bytes later : List Byte} (h : Running (.rdblk a) s)
    (hp : s.ph = .data) (hc : s.cnt = 0#10) (hlen : bytes.length = 512) (hx : s.rx = bytes ++ later) :
    Host.Core.run Sys2Proof.core 512 s = .next (s.receivedBlock bytes later) := by
  have hne : s.ph ≠ .frame := by simp [hp]
  have hbytes : Host.Core.run Sys2Proof.core 511 s = .next (s.received bytes later 511) := by
    refine run_counted (by simp [State.received, Memory.filled, ← hc, ← hx]) fun n hn => ?_
    have hcnt : (s.received bytes later n).cnt.toNat = n := by
      rw [State.received, BitVec.toNat_ofNat]
      omega
    rw [(h.received bytes later n).step_row hne (.readByte a _ hp (by omega)), ← storeRx_received (by omega), hcnt]
    simp only [State.received, BitVec.ofNat_add]
  have hlast := (h.received bytes later 511).run_snoc hbytes hne (.readLast a (s.received bytes later 511) hp rfl)
  rw [← received_all hlen, ← storeRx_received (n := 511) (by omega)]
  exact hlast

/-- The receive buffer that `SEL` names, and the other one (10_state.md R21). -/
theorem named_rxBufId (sel : Bool) : (if sel then .rxB else .rxA) = rxBufId sel := rfl

theorem other_ne_rxBufId (sel : Bool) : (if sel then .rxA else .rxB) ≠ rxBufId sel := by
  cases sel <;> decide

/-- The stored block in the windows: the buffer `SEL` names shows `bytes`, the other two buffers what they did. -/
theorem window_receivedBlock (s : State) (bytes later : List Byte) (b : BufId) (i : Fin 512) :
    (s.receivedBlock bytes later).window b i = if b = rxBufId s.sel then bytes.getD i.val 0#8 else s.window b i := by
  cases b <;> cases hs : s.sel <;>
    simp [State.receivedBlock, State.window, rxBufId, hs, Memory.byteAt_filled]

theorem sentBytes_receivedBlock (s : State) (bytes later : List Byte) :
    sentBytes (s.receivedBlock bytes later).wire = sentBytes s.wire := by
  simp [State.receivedBlock, ← List.map_reverse]

/-- `s` after a byte of `TRAIL` is read and dropped. -/
def State.trailRead (s : State) (n : Nat) (v : Byte) (later : List Byte) : State :=
  { s with rx := later, cnt := BitVec.ofNat 10 n, xn := s.xn + 1, wire := .rx v :: s.wire }

theorem Running.trailRead {i : Instr} {s : State} (h : Running i s) (n : Nat) (v : Byte) (later : List Byte) :
    Running i (s.trailRead n v later) :=
  ⟨h.host, h.busy, h.op⟩

theorem Row.trailRead {s : State} {v : Byte} {later : List Byte} (a : BitVec 32) (n : Nat) (hn : n < 2)
    (hp : s.ph = .trail) (hc : s.cnt = BitVec.ofNat 10 n) (hx : s.rx = v :: later) :
    Row (.rdblk a) s (s.trailRead (n + 1) v later) := by
  have hlt : (BitVec.ofNat 10 n).toNat < 2 := by
    rw [BitVec.toNat_ofNat]
    omega
  have hrow := Row.trailByteAt a hp hc hlt
  rwa [rxByte_cons hx, ← BitVec.ofNat_add] at hrow

/-- `s` after the three trailing bytes: RDBLK has succeeded (44_block_io.md R213). -/
def State.readBlock (s : State) (c0 c1 x : Byte) (later : List Byte) : State :=
  { s with
    cnt := 3#10, rx := later, xn := s.xn + 3, wire := .rx x :: .rx c1 :: .rx c0 :: s.wire, ok := true, val := 0#40,
    busy := false, ph := .idle }

theorem sel_readBlock (s : State) (bytes rest later : List Byte) (c0 c1 x : Byte) :
    ((s.receivedBlock bytes rest).readBlock c0 c1 x later).sel = s.sel := rfl

theorem window_readBlock (s : State) (c0 c1 x : Byte) (later : List Byte) :
    (s.readBlock c0 c1 x later).window = s.window := rfl

theorem sentBytes_readBlock (s : State) (c0 c1 x : Byte) (later : List Byte) :
    sentBytes (s.readBlock c0 c1 x later).wire = sentBytes s.wire := rfl

theorem Running.run_trail {a : BitVec 32} {s : State} {c0 c1 x : Byte} {later : List Byte} (h : Running (.rdblk a) s)
    (hp : s.ph = .trail) (hc : s.cnt = 0#10) (hx : s.rx = c0 :: c1 :: x :: later) :
    Host.Core.run Sys2Proof.core 3 s = .next (s.readBlock c0 c1 x later) := by
  have hne : s.ph ≠ .frame := by simp [hp]
  have h1 := h.trailRead 1 c0 (c1 :: x :: later)
  have h2 := h1.trailRead 2 c1 (x :: later)
  have hlast := h2.step_row hne (.trailLast a _ hp rfl)
  rw [rxByte_cons (s := (s.trailRead 1 c0 _).trailRead 2 c1 (x :: later)) rfl] at hlast
  rw [run_succ 2 s _ (h.step_row hne (.trailRead a 0 (by decide) hp hc hx)),
    run_succ 1 _ _ (h1.step_row hne (.trailRead a 1 (by decide) hp rfl rfl)), run_succ 0 _ _ hlast, run_zero]
  rfl

/-- `s` after `m` idle bytes and the token: the selector is toggled before any byte is stored (44_block_io.md R211). -/
def State.tokenFound (s : State) (m : Nat) (later : List Byte) : State :=
  { s with
    tok := 0xFE#8, sel := !s.sel, cnt := 0#10, ph := .data, rx := later, xn := s.xn + m + 1,
    wire := .rx 0xFE#8 :: (List.replicate m (.rx 0xFF#8) ++ s.wire) }

theorem Running.tokenFound {i : Instr} {s : State} (h : Running i s) (m : Nat) (later : List Byte) :
    Running i (s.tokenFound m later) :=
  ⟨h.host, h.busy, h.op⟩

theorem window_tokenFound (s : State) (m : Nat) (later : List Byte) : (s.tokenFound m later).window = s.window := rfl

theorem sentBytes_tokenFound (s : State) (m : Nat) (later : List Byte) :
    sentBytes (s.tokenFound m later).wire = sentBytes s.wire := by
  simp [State.tokenFound, sentBytes]

theorem Running.run_tokenFound {a : BitVec 32} {s : State} {m : Nat} {later : List Byte} (h : Running (.rdblk a) s)
    (hp : s.ph = .token) (hx : s.rx = List.replicate m 0xFF#8 ++ 0xFE#8 :: later) :
    Host.Core.run Sys2Proof.core (m + 1) s = .next (s.tokenFound m later) :=
  h.run_token hp hx fun _ => .tokenFound a hp rfl

/-- RDBLK from its command to the last trailing byte. -/
theorem Commanding.run_read {a : BitVec 32} {s : State} {k m : Nat} {d c0 c1 x : Byte} {payload later : List Byte}
    (h : Commanding (.rdblk a) s) (hlen : payload.length = 512)
    (hx : s.rx = List.replicate k 0xFF#8 ++ 0x00#8 :: d :: (List.replicate m 0xFF#8 ++ 0xFE#8 ::
      (payload ++ c0 :: c1 :: x :: later))) :
    Host.Core.run Sys2Proof.core (k + 8 + (m + 1) + 512 + 3) s =
      .next ((((s.acceptedRdblk k d (List.replicate m 0xFF#8 ++ 0xFE#8 :: (payload ++ c0 :: c1 :: x :: later))).tokenFound
        m (payload ++ c0 :: c1 :: x :: later)).receivedBlock payload (c0 :: c1 :: x :: later)).readBlock c0 c1 x
        later) := by
  have htoken := h.running_acceptedRdblk k d (List.replicate m 0xFF#8 ++ 0xFE#8 :: (payload ++ c0 :: c1 :: x :: later))
  have hdata := htoken.tokenFound m (payload ++ c0 :: c1 :: x :: later)
  have hrun1 := run_trans (h.run_to_token hx) (htoken.run_tokenFound rfl rfl)
  have hrun2 := run_trans hrun1 (hdata.run_data rfl rfl hlen rfl)
  exact run_trans hrun2 ((hdata.receivedBlock payload _).run_trail rfl rfl rfl)

/-- Settles O55: acceptance, and RDBLK from its command to the last trailing byte (`Commanding.run_read`). -/
theorem rdblkRun : Obligations.RdblkRun := by
  unfold Obligations.RdblkRun
  intro s operand k m d c0 c1 x payload later hb hp hh hlen hx
  have hcmd := commanding_acceptedBlock s operand Config.cmd17 (.inr rfl)
  have hrun := Commanding.run_read (a := operand.extractLsb' 0 32) hcmd hlen hx
  rw [show 525 + k + m = k + 8 + (m + 1) + 512 + 3 + 1 by omega, run_succ _ s _ (step_rdblk hb hp hh)]
  refine ⟨_, hrun, ?_, ?_, ?_, ?_, ?_, ?_, ?stored, ?other, ?_, ?_, ?_, ?_, ?_, ?xn, ?_, ?sent⟩
  case stored =>
    intro i
    have hi : i.val < payload.length := by omega
    rw [sel_readBlock, window_readBlock, window_receivedBlock, if_pos (named_rxBufId _)]
    simp [hi]
  case other =>
    intro i
    rw [sel_readBlock, window_readBlock, window_receivedBlock, if_neg (other_ne_rxBufId _), window_tokenFound,
      window_acceptedRdblk, window_acceptedBlock]
  case sent =>
    rw [sentBytes_readBlock, sentBytes_receivedBlock, sentBytes_tokenFound, sentBytes_acceptedRdblk]
    rfl
  case xn =>
    simp [State.readBlock, State.receivedBlock, State.tokenFound, State.acceptedRdblk, State.heardShort,
      State.acceptedBlock]
    omega
  all_goals
    simp [State.readBlock, State.receivedBlock, State.tokenFound, State.acceptedRdblk, State.heardShort,
      State.acceptedBlock]

end Sys2Proof.Machine
end

section
/-! PROOFS of the shortest run of INIT (43_init_sequencer.md R180, R189). -/

namespace Sys2Proof.Machine

open Sys2Proof.Safety

/-! ## Acceptance and preamble (43_init_sequencer.md R181) -/

/-- `s` after INIT's acceptance, at the start of the preamble. -/
def State.acceptedInit (s : State) (operand : BitVec 40) : State :=
  { s with
    host := [], curOp := 0x7#4, opd := operand, busy := true, csn := true, iseq := .sReset, ph := .pre, cnt := 0#10,
    wire := .csHigh :: s.wire }

theorem step_init {s : State} {operand : BitVec 40} (hb : s.busy = false) (hp : s.ph = .idle)
    (hh : s.host = [.writeReq (0x7#4 ++ operand)]) : step s = .next (s.acceptedInit operand) := by
  rw [step_request s _ operand [] hh hb]
  exact Row.exec (.enterInit _ hp)

theorem running_acceptedInit (s : State) (operand : BitVec 40) : Running .init (s.acceptedInit operand) :=
  ⟨rfl, rfl, rfl⟩

/-- `s` after INIT's acceptance and preamble, at the start of `CMD0`'s frame. -/
def State.startedInit (s : State) (operand : BitVec 40) : State :=
  { s with
    host := [], curOp := 0x7#4, opd := operand, busy := true, csn := false, iseq := .sGoIdle, ph := .frame, cnt := 0#10,
    frm := buildFrame Config.cmd0 0#32, xn := s.xn + 10,
    wire := .csLow :: (List.replicate 10 (.tx 0xFF#8) ++ .csHigh :: s.wire) }

theorem initAt_startedInit (s : State) (operand : BitVec 40) :
    InitAt .sGoIdle Config.cmd0 0#32 (s.startedInit operand) :=
  ⟨rfl, rfl, rfl, rfl, rfl, rfl, rfl⟩

theorem sentBytes_startedInit (s : State) (operand : BitVec 40) :
    (sentBytes (s.startedInit operand).wire).reverse = (sentBytes s.wire).reverse ++ List.replicate 10 0xFF#8 := by
  simp [State.startedInit, sentBytes, ← List.map_replicate]

theorem run_preamble (s : State) (operand : BitVec 40) :
    Host.Core.run Sys2Proof.core 10 (s.acceptedInit operand) = .next (s.startedInit operand) := by
  have h := running_acceptedInit s operand
  have hidle := h.run_idleBytes (m := 9) nofun rfl (by decide) fun u hp hq hlt => .preByte u hp hq hlt
  exact (h.sentIdle 9).run_snoc hidle nofun (.preLast _ rfl rfl rfl)

/-! ## What a part of INIT's run adds and leaves -/

/-- `n` steps lead from `s` to `t` in `n` exchanges, in which `sent` is sent; `SEL`, `CSN`, `CUR_OP` and the buffers stay. -/
structure Leads (n : Nat) (sent : List Byte) (s t : State) : Prop where
  run : Host.Core.run Sys2Proof.core n s = .next t
  xn : t.xn = s.xn + n
  sent : (sentBytes t.wire).reverse = (sentBytes s.wire).reverse ++ sent
  curOp : t.curOp = s.curOp
  csn : t.csn = s.csn
  sel : t.sel = s.sel
  wrbuf : t.wrbuf = s.wrbuf
  rxA : t.rxA = s.rxA
  rxB : t.rxB = s.rxB

theorem Leads.trans {m n : Nat} {sent sent' : List Byte} {s t u : State} (h : Leads m sent s t)
    (h' : Leads n sent' t u) : Leads (m + n) (sent ++ sent') s u where
  run := run_trans h.run h'.run
  xn := by rw [h'.xn, h.xn, Nat.add_assoc]
  sent := by rw [h'.sent, h.sent, List.append_assoc]
  curOp := h'.curOp.trans h.curOp
  csn := h'.csn.trans h.csn
  sel := h'.sel.trans h.sel
  wrbuf := h'.wrbuf.trans h.wrbuf
  rxA := h'.rxA.trans h.rxA
  rxB := h'.rxB.trans h.rxB

/-- A round of INIT with a short response, as a part of its run. -/
theorem InitAt.leads_short {q q' : ISeq} {code code' : BitVec 6} {arg arg' : BitVec 32} {s : State} {k : Nat}
    {v d : Byte} {later : List Byte} (h : InitAt q code arg s) (hq : q = .sGoIdle ∨ q = .sAppCmd ∨ q = .sAppOpCond)
    (hx : s.rx = List.replicate k 0xFF#8 ++ v :: d :: later) (hv : v ≠ 0xFF#8)
    (hrow : Row .init (s.heardShort k v (d :: later)) (s.afterShort k v d later q' code' arg')) :
    ∃ t, Leads (k + 8) (buildFrame code arg).toList s t ∧ InitAt q' code' arg' t ∧ t.rx = later ∧
      t.resp = s.resp.set 0 v := by
  obtain ⟨hrun, hat⟩ := h.round_short hq hx hv hrow
  refine ⟨_, ⟨hrun, ?_, h.frm ▸ sentBytes_afterShort s k v d later q' code' arg', ?_, ?_, ?_, ?_, ?_, ?_⟩, hat, ?_, ?_⟩
  all_goals simp [State.afterShort, State.nextCommand, State.heardShort, Nat.add_assoc]

/-- A short response `0x01` after `CMD0` leads to `CMD8` (43_init_sequencer.md R182). -/
theorem InitAt.leads_goIdle {s : State} {k : Nat} {d : Byte} {later : List Byte}
    (h : InitAt .sGoIdle Config.cmd0 0#32 s) (hx : s.rx = List.replicate k 0xFF#8 ++ 0x01#8 :: d :: later) :
    ∃ t, Leads (k + 8) (buildFrame Config.cmd0 0#32).toList s t ∧ InitAt .sCheckIf Config.cmd8 Config.cmd8Arg t ∧
      t.rx = later ∧ t.resp = s.resp.set 0 0x01#8 :=
  h.leads_short (.inl rfl) hx (by decide)
    (.initFrame _ _ _ _ rfl (.inl ⟨h.state, by simp [State.heardShort], rfl, rfl, rfl⟩))

/-- A short response `0x01` after `CMD55` leads to `CMD41` (43_init_sequencer.md R184). -/
theorem InitAt.leads_appCmd {s : State} {k : Nat} {d : Byte} {later : List Byte}
    (h : InitAt .sAppCmd Config.cmd55 0#32 s) (hx : s.rx = List.replicate k 0xFF#8 ++ 0x01#8 :: d :: later) :
    ∃ t, Leads (k + 8) (buildFrame Config.cmd55 0#32).toList s t ∧
      InitAt .sAppOpCond Config.cmd41 Config.cmd41Arg t ∧ t.rx = later ∧ t.resp = s.resp.set 0 0x01#8 :=
  h.leads_short (.inr (.inl rfl)) hx (by decide) (.initFrame _ _ _ _ rfl
    (.inr (.inr (.inr (.inr (.inl ⟨h.state, by simp [State.heardShort], rfl, rfl, rfl⟩))))))

/-! ## The extended response of `CMD8` (43_init_sequencer.md R183) -/

/-- `s` in `DISC`, after its frame, `k` idle bytes and the response that `S_CHECK_IF` awaits. -/
def State.heardCheck (s : State) (k : Nat) (later : List Byte) : State :=
  { s with
    cnt := 5#10, ph := .disc, rx := later, tok := 0x01#8, resp := Config.r7Check, respLen := .ext5,
    xn := s.xn + (k + 11),
    wire := .rx 0xAA#8 :: .rx 0x01#8 :: .rx 0x00#8 :: .rx 0x00#8 :: .rx 0x01#8 ::
      (List.replicate k (.rx 0xFF#8) ++ ((s.frm.toList.map Event.tx).reverse ++ s.wire)) }

theorem sentBytes_heardCheck (s : State) (k : Nat) (later : List Byte) :
    (sentBytes (s.heardCheck k later).wire).reverse = (sentBytes s.wire).reverse ++ s.frm.toList := by
  simp [State.heardCheck, sentBytes, ← List.map_reverse]

/-- `CMD8`, `k` idle bytes and the awaited response. -/
theorem InitAt.run_check {code : BitVec 6} {arg : BitVec 32} {s : State} {k : Nat} {later : List Byte}
    (h : InitAt .sCheckIf code arg s)
    (hx : s.rx = List.replicate k 0xFF#8 ++ 0x01#8 :: 0x00#8 :: 0x00#8 :: 0x01#8 :: 0xAA#8 :: later) :
    Host.Core.run Sys2Proof.core (6 + (k + 1) + 4) s = .next (s.heardCheck k later) := by
  have hfirst := h.commanding.running_sentFrame.run_extended_first (.inr ⟨rfl, h.state⟩) rfl hx (by decide)
  have hrun := run_trans (run_trans h.commanding.run_frame hfirst) (Running.run_capture (i := .init)
    ⟨h.running.host, h.running.busy, h.running.op⟩ (.inr ⟨rfl, h.state⟩) rfl rfl rfl)
  have hxn : s.xn + 6 + (k + 1) + 4 = s.xn + (k + 11) := by omega
  rw [hrun]
  simp [State.sentFrame, State.heardCheck, Config.r7Check, hxn]

/-- The extended response `0x01000001AA` after `CMD8` leads to `CMD55`. -/
theorem InitAt.leads_checkIf {s : State} {k : Nat} {d : Byte} {later : List Byte}
    (h : InitAt .sCheckIf Config.cmd8 Config.cmd8Arg s)
    (hx : s.rx = List.replicate k 0xFF#8 ++ 0x01#8 :: 0x00#8 :: 0x00#8 :: 0x01#8 :: 0xAA#8 :: d :: later) :
    ∃ t, Leads (k + 12) (buildFrame Config.cmd8 Config.cmd8Arg).toList s t ∧ InitAt .sAppCmd Config.cmd55 0#32 t ∧
      t.rx = later ∧ t.resp = Config.r7Check := by
  have hdisc : Running .init (s.heardCheck k (d :: later)) := ⟨h.running.host, h.running.busy, h.running.op⟩
  have hrun := hdisc.run_snoc (h.run_check hx) nofun
    (.initFrame _ _ _ _ rfl (.inr (.inr (.inl ⟨h.state, rfl, rfl, rfl, rfl⟩))))
  rw [show 6 + (k + 1) + 4 + 1 = k + 12 by omega] at hrun
  refine ⟨_, ⟨hrun, ?_, h.frm ▸ sentBytes_heardCheck s k (d :: later), ?_, ?_, ?_, ?_, ?_, ?_⟩,
    ⟨h.host, h.busy, h.op, rfl, rfl, rfl, rfl⟩, ?_, ?_⟩
  all_goals simp [State.heardCheck, Nat.add_assoc]

/-! ## Completion (43_init_sequencer.md R185) -/

/-- `s` with INIT completed by the short response `0x00` after `CMD41`. -/
def State.ready (s : State) (k : Nat) (d : Byte) (later : List Byte) : State :=
  { rxByte (s.heardShort k 0x00#8 (d :: later)) with
    iseq := .sReady, ok := true, val := 0#40, busy := false, ph := .idle }

theorem sentBytes_ready (s : State) (k : Nat) (d : Byte) (later : List Byte) :
    (sentBytes (s.ready k d later).wire).reverse = (sentBytes s.wire).reverse ++ s.frm.toList :=
  sentBytes_heardShort s k 0x00#8 (d :: later)

theorem InitAt.leads_ready {code : BitVec 6} {arg : BitVec 32} {s : State} {k : Nat} {d : Byte} {later : List Byte}
    (h : InitAt .sAppOpCond code arg s) (hx : s.rx = List.replicate k 0xFF#8 ++ 0x00#8 :: d :: later) :
    Leads (k + 8) (buildFrame code arg).toList s (s.ready k d later) := by
  have hrun : Host.Core.run Sys2Proof.core (k + 8) s = .next (s.ready k d later) :=
    h.commanding.run_short (.inr (.inl ⟨rfl, .inr (.inr h.state)⟩)) hx (by decide)
      (.initReady _ rfl h.state (by simp [State.heardShort]))
  refine ⟨hrun, ?_, h.frm ▸ sentBytes_ready s k d later, ?_, ?_, ?_, ?_, ?_, ?_⟩
  all_goals simp [State.ready, State.heardShort, Nat.add_assoc]

/-- Settles O52: acceptance and preamble, the three rounds that lead from command to command, and the one that completes. -/
theorem initShortestRun : Obligations.InitShortestRun := by
  unfold Obligations.InitShortestRun
  intro s operand k1 k2 k3 k4 d1 d2 d3 d4 later hb hp hh hx
  obtain ⟨hcmd0, hcmd8, hcmd55, hcmd41, _⟩ := sequencerFramesByteForByte
  obtain ⟨s1, h1, hat1, hx1, -⟩ := (initAt_startedInit s operand).leads_goIdle (k := k1) hx
  obtain ⟨s2, h2, hat2, hx2, hresp2⟩ := hat1.leads_checkIf hx1
  obtain ⟨s3, h3, hat3, hx3, hresp3⟩ := hat2.leads_appCmd hx2
  have h := ((h1.trans h2).trans h3).trans (hat3.leads_ready hx3)
  have hresp : (s3.ready k4 d4 later).resp = s3.resp.set 0 0x00#8 := rfl
  have hrun : Host.Core.run Sys2Proof.core (47 + k1 + k2 + k3 + k4) s = .next (s3.ready k4 d4 later) := by
    rw [show 47 + k1 + k2 + k3 + k4 = 10 + (k1 + 8 + (k2 + 12) + (k3 + 8) + (k4 + 8)) + 1 by omega,
      run_succ _ s _ (step_init hb hp hh)]
    exact run_trans (run_preamble s operand) h.run
  refine ⟨_, hrun, rfl, h.csn, rfl, rfl, rfl, rfl, ?resp, rfl, h.curOp, h.sel, h.wrbuf, h.rxA, h.rxB, ?xn, rfl, ?sent⟩
  case resp =>
    rw [hresp, hresp3, hresp2]
    decide
  case xn =>
    rw [h.xn]
    simp only [State.startedInit]
    omega
  case sent =>
    rw [h.sent, sentBytes_startedInit, hcmd0, show Config.cmd8Arg = 0x000001AA#32 from rfl, hcmd8, hcmd55,
      show Config.cmd41Arg = 0x40000000#32 from rfl, hcmd41]
    simp

end Sys2Proof.Machine
end
